-- ==== Sys2Proof/Word.lean ====
section
/-! DEFINITION. The word and byte of the part: every layout of spec/12_formats_signals_and_ratings.md is of
32-bit words, and trace memory is addressed by bytes. -/

namespace Sys2Proof

/-- A 32-bit word: the unit of the upstream and downstream ports. -/
abbrev Word := BitVec 32

/-- One byte of trace memory. -/
abbrev Byte := BitVec 8

/-- An upstream byte address: the upstream space is 32 MiB (spec/00_scope.md, Address plan). -/
abbrev Addr := BitVec 25

/-- The four byte enables of an access; bit i enables the byte at the word's address + i. -/
abbrev Enables := BitVec 4

end Sys2Proof
end

