-- ==== Sys2Proof/Syntax.lean ====
section
/-! DEFINITION. The commands of the part: one constructor for each row of spec/opcode_table.json. The table gives no
row any bits; each constructor carries what its spec rule says the command brings (an address, byte enables, data). -/

namespace Sys2Proof

/-- The sense of an edge of the trigger line (R27). -/
inductive EdgeSense where
  | rising
  | falling
  deriving DecidableEq, Repr

/-- The commands, in the order of spec/opcode_table.json. The fourteen commands of the command word (R18, R19, R176)
carry the other three bytes of the word written: the slot operand (bits 15:8), the byte no table names (bits 23:16) and
the tag (bits 31:24). -/
inductive Instr where
  | enable (operand spare tag : BitVec 8)
  | disable (operand spare tag : BitVec 8)
  | start (operand spare tag : BitVec 8)
  | stop (operand spare tag : BitVec 8)
  | resume (operand spare tag : BitVec 8)
  | restart (operand spare tag : BitVec 8)
  | release (operand spare tag : BitVec 8)
  | trigger (operand spare tag : BitVec 8)
  | reinit (operand spare tag : BitVec 8)
  | adopt (operand spare tag : BitVec 8)
  | compare (operand spare tag : BitVec 8)
  | markBased (operand spare tag : BitVec 8)
  | clearConditions (operand spare tag : BitVec 8)
  | ackNotices (operand spare tag : BitVec 8)
  /-- A full-word write of the command word whose code names no command (R19). -/
  | unknownCode (data : Word)
  /-- A write of the command word with some byte enable clear (R18). -/
  | refusedForm (be : Enables) (data : Word)
  /-- A write at a control-page offset 0x000 to 0x87F (R1). -/
  | planWrite (offset : BitVec 12) (be : Enables) (data : Word)
  /-- A write of the taken index word, offset 0x884 (R151). -/
  | takenIndexWrite (be : Enables) (data : Word)
  /-- A write to trace memory or to a plain word of the control page (R170). -/
  | upstreamMemoryWrite (addr : Addr) (be : Enables) (data : Word)
  /-- A read of trace memory or of the control page (R168). -/
  | upstreamMemoryRead (addr : Addr) (be : Enables)
  /-- A write at a control-page offset 0x900 to 0xCDF (R167). -/
  | partWrittenAreaWrite (offset : BitVec 12) (be : Enables) (data : Word)
  /-- An access to a stray address (R167). -/
  | strayAccess (addr : Addr) (write : Bool) (be : Enables) (data : Word)
  /-- A read of the shot window; the operand is the byte offset in it (R167). -/
  | shotWindowRead (offset : BitVec 16) (be : Enables)
  /-- A write to the view window; the operand is the byte offset in it (R165). -/
  | viewWindowWrite (offset : BitVec 16) (be : Enables) (data : Word)
  /-- A full-word write of shot-window word 0 (R68). -/
  | headerWrite (data : Word)
  /-- A full-word write of another shot-window word; the operand is the word offset (R70). -/
  | wordWrite (offset : BitVec 14) (data : Word)
  /-- A shot-window write with some byte enable clear (R67). -/
  | partialWrite (offset : BitVec 14) (be : Enables) (data : Word)
  /-- A read of the view window; the operand is the byte offset in it (R162). -/
  | viewRead (offset : BitVec 16) (be : Enables)
  | passGrant
  | accumGrant
  | traceGrant
  | viewFetchGrant
  | postGrant
  | quietHoursGateAsserted
  | quietHoursGateDeasserted
  | liveLightGuardAsserted
  | liveLightGuardDeasserted
  /-- An edge of the trigger line, of the sense given (R27). -/
  | triggerEdge (sense : EdgeSense)
  | hardReset
  | resetDeasserted
  | settleTimerExpiry
  | warmUpExpiry
  | warmHoldExpiry
  | dutyPeriodEnd
  | shotSpacingExpiry
  /-- The deadline of the outstanding shot with this sequence expires (R76). -/
  | shotDeadlineExpiry (sequence : BitVec 16)
  | takeResult
  deriving DecidableEq, Repr

/-- The commands of the command word, as codes (spec/12_formats_signals_and_ratings.md, 12.3). -/
inductive CommandName where
  | enable | disable | start | stop | resume | restart | release | trigger | reinit | adopt | compare | markBased
  | clearConditions | ackNotices
  deriving DecidableEq, Repr

/-- The code of a command (table of 12.3). -/
def CommandName.code : CommandName → BitVec 8
  | .enable => 0x01
  | .disable => 0x02
  | .start => 0x03
  | .stop => 0x04
  | .resume => 0x05
  | .restart => 0x06
  | .release => 0x07
  | .trigger => 0x08
  | .reinit => 0x09
  | .adopt => 0x0A
  | .compare => 0x0B
  | .markBased => 0x0C
  | .clearConditions => 0x0D
  | .ackNotices => 0x0E

/-- The word a command is written as: code, slot operand, unnamed byte, tag (12.3, command word). -/
def CommandName.word (c : CommandName) (operand spare tag : BitVec 8) : Word :=
  tag ++ spare ++ operand ++ c.code

end Sys2Proof
end

