-- ==== Sys2Proof/Decode.lean ====
section
/-! DEFINITION. Decoding. No row of spec/opcode_table.json gives bits, so a table word spells no command; the one
encoding the spec itself decodes is the code byte of the command word (R19, R176). -/

namespace Sys2Proof

/-- The command a table word spells: the table gives no row any bits, so none. -/
def decodeTableWord (_nbits _w : Nat) : Option Instr := none

/-- The command a code names, by the table of 12.3; every other code, 0x00 included, names none (R19 test 1). -/
def decodeCode (c : BitVec 8) : Option CommandName :=
  match c.toNat with
  | 0x01 => some .enable
  | 0x02 => some .disable
  | 0x03 => some .start
  | 0x04 => some .stop
  | 0x05 => some .resume
  | 0x06 => some .restart
  | 0x07 => some .release
  | 0x08 => some .trigger
  | 0x09 => some .reinit
  | 0x0A => some .adopt
  | 0x0B => some .compare
  | 0x0C => some .markBased
  | 0x0D => some .clearConditions
  | 0x0E => some .ackNotices
  | _ => none

end Sys2Proof
end

