-- ==== Sys2Proof/Config.lean ====
section
/-! DEFINITION. The free values: what the spec leaves to the part, which no proof may look into. -/

namespace Sys2Proof

/-- Free value. R89: when a slot's view lock becomes FREE with both the next add of the slot and a held view read of
it waiting, either may take it first. `true` means the view read takes it first. The argument is the number of such
choices made so far (State.freeIndex). Nothing in Lean knows a value of it (log entry 8). -/
opaque Config.viewReadFirst : Nat → Bool

end Sys2Proof
end

