-- ==== Sys2Proof/Machine/State.lean ====
section
/-! DEFINITION. The state of the part, block by block, as plain data, and the state after reset. -/

namespace Sys2Proof.Machine

/-! ### Why a step can stop -/

/-- Why the part can fault. The spec describes nothing that stops the part: every access is answered, discarded or
passed (R167) and every error is state. So there is no fault; nobody raises one, which is safe. -/
inductive Fault : Type
  deriving DecidableEq, Repr

/-- Why a step can be refused. -/
inductive Refusal where
  /-- Raised by an arm of `exec` for a command that has no meaning in the model; safe. No arm raises it. -/
  | notModelled (mnemonic : String)
  deriving DecidableEq, Repr

/-! ### Names the blocks share -/

/-- The number of a slot, 0 to 23 (R5). -/
abbrev SlotIx := Fin 24

/-- One value for each of the 24 slots. -/
abbrev Slots (α : Type) := Vector α 24

/-- The 16 words of a slot record (12.3). -/
abbrev Record16 := Vector Word 16

/-- One value for each of the three laser sources (R49). -/
structure Sources (α : Type) where
  s0 : α
  s1 : α
  s2 : α
  deriving DecidableEq, Repr

/-- The sweep modes as acted on; the fourth code acts as ONCE (R3). -/
inductive SweepMode where
  | once | loop | triggered
  deriving DecidableEq, Repr

/-- The sequencer states (2.1). -/
inductive SeqState where
  | off | idle | waiting | sweeping | paused | halted
  deriving DecidableEq, Repr

/-- The command outcomes (R20). -/
inductive CmdOutcome where
  | none | accepted | refusedState | refusedBusy | refusedOperand | refusedNotReady | refusedForm | unknownCode
  deriving DecidableEq, Repr

/-- What became of a slot in a sweep (R34). -/
inductive SlotOutcome where
  | notInSweep | done | live | faulted | notRun | planFault
  deriving DecidableEq, Repr

/-- Why a sweep ended (R37). -/
inductive EndReason where
  | complete | stopped | restarted | headerFault | quiet
  deriving DecidableEq, Repr

/-- The verdict kinds (R132), with LOSS CANDIDATE, which is a result kind only (R117). -/
inductive Kind where
  | unknown | unbased | clear | reflection | loss | bend | brk | anomaly | live | faulted | lossCandidate
  deriving DecidableEq, Repr

/-- The reason carried by a FAULTED result (R118, R144). -/
inductive FaultReason where
  | none | sampler | condition
  deriving DecidableEq, Repr

/-- The three conditions (6.4). -/
inductive Condition where
  | saturated | gap | clipped
  deriving DecidableEq, Repr

/-- A set of conditions. -/
structure CondSet where
  saturated : Bool
  gap : Bool
  clipped : Bool
  deriving DecidableEq, Repr

/-- The empty set of conditions. -/
def CondSet.empty : CondSet := ⟨false, false, false⟩

/-- The background operations of the Trace Engine (R119). -/
inductive BgOp where
  | compareRun | adopt | compareCommand
  deriving DecidableEq, Repr

/-- An upstream access: address, direction, byte enables and data (R168); a read carries data 0. -/
structure Access where
  addr : Addr
  write : Bool
  be : Enables
  data : Word
  deriving DecidableEq, Repr

/-! ### Plan Capture -/

/-- One copy of the plan, as the words written (R1, R3, R5, R6, R176). -/
structure PlanCopy where
  header : Vector Word 32
  zones : Vector Word 128
  records : Slots Record16
  deriving DecidableEq, Repr

/-- The outcome record of the last command (R20). -/
structure OutcomeRecord where
  code : BitVec 8
  tag : BitVec 8
  outcome : CmdOutcome
  deriving DecidableEq, Repr

/-- The state of Plan Capture (R2, R8, R13, R17, R20). The hold flag is the hold edits bit of the active header, which
R7 sets with every merge (log entry 22). -/
structure PlanState where
  pendingCopy : PlanCopy
  activeCopy : PlanCopy
  headerDirty : Bool
  zonesDirty : Bool
  recordDirty : Slots Bool
  ringPending : Bool
  ringFault : Bool
  lastCommand : OutcomeRecord
  partnerIgnored : Slots Bool
  deriving DecidableEq, Repr

/-! ### Sweep Sequencer -/

/-- What a slot in AWAITING COMPARE holds (R31). -/
inductive Held where
  | accumulation | live | faultedSampler
  deriving DecidableEq, Repr

/-- The phases of the acquisition lane (R31). -/
inductive AcqPhase where
  | settling | guarding | firing | resting
  | awaiting (held : Held)
  deriving DecidableEq, Repr

/-- The acquisition lane, holding one slot. -/
structure AcqLane where
  slot : SlotIx
  phase : AcqPhase
  deriving DecidableEq, Repr

/-- A result handed to the Verdict Unit (R118, R146). For UNBASED, LIVE and FAULTED SAMPLER, `injected` is false and
the fields no rule names are 0. -/
structure Result where
  kind : Kind
  location : Nat
  magnitude : Int
  reflective : Bool
  preceded : Bool
  masked : CondSet
  reason : FaultReason
  sweep : BitVec 32
  injected : Bool
  glitches : Nat
  deriving DecidableEq, Repr

/-- The phases of the comparison lane (R33). -/
inductive CompPhase where
  | comparing
  | posting (result : Result)
  deriving DecidableEq, Repr

/-- The comparison lane, holding one slot. -/
structure CompLane where
  slot : SlotIx
  phase : CompPhase
  deriving DecidableEq, Repr

/-- The state of the Sweep Sequencer (R22). -/
structure SequencerState where
  state : SeqState
  sweepNumber : BitVec 32
  mode : SweepMode
  acq : Option AcqLane
  comp : Option CompLane
  cursor : Nat
  orderEnded : Bool
  quietEnd : Bool
  entered : Bool
  outcomes : Slots SlotOutcome
  deriving DecidableEq, Repr

/-! ### Optical Control -/

/-- The warm state of a source (R49). -/
inductive WarmState where
  | cold | warming | warm
  deriving DecidableEq, Repr

/-- A timer running for one source, with the milliseconds it was started with (log entry 2). -/
structure SourceTimer where
  source : BitVec 2
  ms : Nat
  deriving DecidableEq, Repr

/-- The state and lines of Optical Control (3.1, R46). A timer is `none` when stopped or elapsed. -/
structure OpticalState where
  port : BitVec 6
  settled : Bool
  settleTimer : Option Nat
  warm : Sources WarmState
  warmUpTimer : Option SourceTimer
  warmHoldTimer : Option SourceTimer
  dutyTimer : Option Nat
  dutyCount : Sources Nat
  spacingTimer : Option Nat
  nextSeq : BitVec 16
  /-- The run has fired: R57 step 5 asks for the first fire of the run. -/
  fired : Bool
  testActive : Bool
  pulseWidth : BitVec 3
  tagSlot : BitVec 5
  tagSeq : BitVec 16
  /-- The model's own count of strobe pulses (log entry 16). -/
  strobes : Nat
  deriving DecidableEq, Repr

/-! ### Shot Intake -/

/-- The number of a staging buffer. -/
inductive BufIx where
  | b0 | b1
  deriving DecidableEq, Repr

/-- The record a staging buffer holds: its header and the sample words in order (R65, R70). -/
structure ShotRecord where
  header : Word
  samples : List Word
  deriving DecidableEq, Repr

/-- A staging buffer (R75). -/
inductive Buffer where
  | free
  | reserved
  | filling (record : ShotRecord)
  | queued (record : ShotRecord)
  deriving DecidableEq, Repr

/-- An outstanding shot (R74); the deadline is in microseconds from the fire (log entry 2). -/
structure Shot where
  sequence : BitVec 16
  deadline : Nat
  buffer : BufIx
  deriving DecidableEq, Repr

/-- The record in progress of the framing state (R64, R69). -/
structure Frame where
  buffer : BufIx
  sequence : BitVec 16
  next : Nat
  check : Nat
  crc : BitVec 16
  deriving DecidableEq, Repr

/-- Why a record was rejected (R73). -/
inductive RejectReason where
  | none | check | truncated | misordered | partialWrite | clipped
  deriving DecidableEq, Repr

/-- The state of Shot Intake (R64); `framing` is `none` in AWAITING HEADER. -/
structure IntakeState where
  outstanding : List Shot
  buffer0 : Buffer
  buffer1 : Buffer
  framing : Option Frame
  failures : Nat
  accepted : Slots Nat
  rejected : Slots Nat
  lost : Slots Nat
  lastReject : Slots RejectReason
  stray : Bool
  deriving DecidableEq, Repr

/-! ### Accumulation Engine -/

/-- An accepted record waiting to be added (R84). -/
structure QueueEntry where
  slot : SlotIx
  buffer : BufIx
  clipped : Bool
  deriving DecidableEq, Repr

/-- How an add writes a point (R86). -/
inductive AddMode where
  | write | add
  deriving DecidableEq, Repr

/-- The add in progress (R84, R87); `read` is the accumulator word read and not yet written back. -/
structure AddState where
  slot : SlotIx
  buffer : BufIx
  mode : AddMode
  clipped : Bool
  point : Nat
  read : Option Word
  deriving DecidableEq, Repr

/-- A slot's view lock (R89). -/
inductive LockState where
  | free | adding | viewing
  deriving DecidableEq, Repr

/-- The state of the Accumulation Engine (R84); its guards stand in the guard list of the memory path. -/
structure AccumState where
  queue : List QueueEntry
  add : Option AddState
  lock : Slots LockState
  ready : Slots Bool
  clippedContent : Slots Bool
  deriving DecidableEq, Repr

/-! ### Trace Engine -/

/-- The class of a point (R111). -/
inductive PointClass where
  | skip | within | floor | low | high
  deriving DecidableEq, Repr

/-- The search state of a comparison (R114). -/
inductive Search where
  | seeking | afterLow | decided
  deriving DecidableEq, Repr

/-- A run of points of one class, with its first-c sum (R113); `base` is the baseline word at its start and `before` the
class of the point before its start, which R116 asks for when a FLOOR run is confirmed. -/
structure Run where
  cls : PointClass
  start : Nat
  length : Nat
  sum : Int
  base : Int
  before : Option PointClass
  deriving DecidableEq, Repr

/-- The decided result of a comparison (R113). -/
structure Decided where
  kind : Kind
  location : Nat
  magnitude : Int
  reflective : Bool
  preceded : Bool
  deriving DecidableEq, Repr

/-- The comparison record (R113). -/
structure Comparison where
  run : Option Run
  prev : Option PointClass
  search : Search
  leading : Option Run
  decided : Option Decided
  glitches : Nat
  deriving DecidableEq, Repr

/-- One entry of a slot's zone sequence (R6, R110). -/
structure Zone where
  start : Nat
  low : Nat
  high : Nat
  deriving DecidableEq, Repr

/-- The operation in the background slot, with what it read when it began (R94, R102, R113, R119). -/
structure Background where
  op : BgOp
  slot : SlotIx
  shots : Nat
  record : Record16
  zones : List Zone
  stopping : CondSet
  raised : CondSet
  masked : CondSet
  point : Nat
  /-- The accumulator word of the point in progress, once its read is granted. -/
  acc : Option Word
  cmp : Comparison
  deriving DecidableEq, Repr

/-- A valid capture record (R104). -/
structure Capture where
  op : BgOp
  slot : SlotIx
  sweep : BitVec 32
  point : Nat
  cond : Condition
  deriving DecidableEq, Repr

/-- The view formats (R158). -/
inductive ViewFormat where
  | linear | level | deviation | packed
  deriving DecidableEq, Repr

/-- The view fields, clamped, and the slot record's figures a read took up (R158). -/
structure ViewFields where
  slot : SlotIx
  format : ViewFormat
  towardZero : Bool
  start : Nat
  step : Nat
  bin : Nat
  count : Nat
  accBase : Nat
  baseBase : Nat
  dark : Nat
  deriving DecidableEq, Repr

/-- How far a held view read has come (R162). -/
inductive ViewStage where
  /-- Waiting for the point in progress of a background operation (step 1), the point it found there (R163). -/
  | waitPoint (point : Nat)
  /-- Waiting for the slot's view lock (step 3). -/
  | waitLock (fields : ViewFields)
  /-- Fetching, with S and the words fetched so far (step 5). -/
  | fetching (fields : ViewFields) (shots : Nat) (words : List Word)
  deriving DecidableEq, Repr

/-- The view read in service (R166). -/
structure ViewRead where
  access : Access
  stage : ViewStage
  deriving DecidableEq, Repr

/-- The state of the Trace Engine (6.4, R112, R119, R108, R166). -/
structure TraceState where
  summary : CondSet
  capture : Option Capture
  captureOverrun : Bool
  clipNote : Slots Bool
  seen : Slots CondSet
  glitchCount : Slots Nat
  bg : Option Background
  squeezed : Bool
  view : Option ViewRead
  deriving DecidableEq, Repr

/-! ### Verdict Unit -/

/-- A finding as formed by the Verdict Unit, with its sequence (R144, R149). -/
structure Finding where
  sequence : BitVec 16
  slot : SlotIx
  newKind : Kind
  prevKind : Kind
  sweep : BitVec 32
  location : Nat
  port : BitVec 6
  source : BitVec 2
  paired : Bool
  reflective : Bool
  preceded : Bool
  masked : Bool
  injected : Bool
  reason : FaultReason
  magnitude : Int
  deriving DecidableEq, Repr

/-- One entry of the verdict table (R131). -/
structure VerdictEntry where
  based : Bool
  kind : Kind
  location : Nat
  magnitude : Int
  unposted : Bool
  inFlight : Option Finding
  deriving DecidableEq, Repr

/-- A slot's entry judgement in the sweep in progress (R135). -/
inductive Judgement where
  /-- The slot has not entered the acquisition lane in this sweep. -/
  | notEntered
  /-- It entered with no honoured partner. -/
  | unpaired
  /-- It entered with this partner honoured. -/
  | names (partner : SlotIx)
  deriving DecidableEq, Repr

/-- A pair input (R135); `masked` travels with a PENDING result to its posting (R144, log entry 20). -/
structure PairInput where
  kind : Kind
  location : Nat
  magnitude : Int
  final : Bool
  masked : Bool
  deriving DecidableEq, Repr

/-- The state of the Verdict Unit (R131, R135). -/
structure VerdictState where
  table : Slots VerdictEntry
  judgements : Slots Judgement
  inputs : Slots (Option PairInput)
  deriving DecidableEq, Repr

/-! ### Findings Unit -/

/-- The sweep summary as composed at a sweep's end (R37). -/
structure Summary where
  sweep : BitVec 32
  mode : SweepMode
  reason : EndReason
  empty : Bool
  posted : Nat
  deferred : Nat
  outcomes : Slots SlotOutcome
  deriving DecidableEq, Repr

/-- A record waiting in the record queue (R150), with its notice request (R153). -/
inductive QRecord where
  | finding (f : Finding)
  | capture (c : Option Capture) (notice : Bool)
  | summary (sm : Summary) (notice : Bool)
  deriving DecidableEq, Repr

/-- The state of the Findings Unit (R148); the status image stands in `MirrorState`. -/
structure FindingsState where
  post : BitVec 16
  taken : BitVec 16
  seq : BitVec 16
  fill : Nat
  queue : List QRecord
  /-- How many words of the head record are granted (R150). -/
  headWord : Nat
  /-- The address taken at the grant of the head record's first word (R150). -/
  headBase : Nat
  /-- Words of the invalid capture record still to be written after a hard reset (R105, R148). -/
  resetCapture : Nat
  ringFull : Bool
  takenRefused : Bool
  sweepEndNotice : Bool
  captureNotice : Bool
  posted : Nat
  deferred : Nat
  deriving DecidableEq, Repr

/-- The status image and its dirty marks (R148, R156): words 0 to 31 are the general part at 0x900, words 32 + 8 k to
39 + 8 k the status entry of slot k at 0x980 + 32 k. -/
structure MirrorState where
  image : Vector Word 224
  dirty : Vector Bool 224
  deriving DecidableEq, Repr

/-! ### Memory Path Unit and lines -/

/-- Who holds a guard (R169). -/
inductive GuardHolder where
  | run | compareCommand | adopt
  deriving DecidableEq, Repr

/-- An entry of the guard list: `words` words from byte address `base` (R169). -/
structure Guard where
  holder : GuardHolder
  slot : SlotIx
  base : Nat
  words : Nat
  deriving DecidableEq, Repr

/-- The state of the Memory Path Unit (R168, R169, R173, R175). -/
structure PathState where
  pass : Option Access
  passCount : Nat
  guards : List Guard
  strayAccess : Bool
  guardHit : Bool
  /-- The model's own: accesses presented while the bus is held (log entry 4). -/
  waiting : List Access
  /-- The model's own: the word last answered upstream (log entry 15). -/
  readData : Word
  deriving DecidableEq, Repr

/-- The input lines (R178); `true` is asserted, and high for the trigger line. -/
structure PinState where
  gate : Bool
  liveLight : Bool
  trigger : Bool
  resetAsserted : Bool
  deriving DecidableEq, Repr

/-- The part. -/
structure State where
  plan : PlanState
  seq : SequencerState
  opt : OpticalState
  intake : IntakeState
  accum : AccumState
  trace : TraceState
  verdict : VerdictState
  findings : FindingsState
  mirror : MirrorState
  path : PathState
  /-- Trace memory: the bytes that do not read 0, addresses strictly rising (log entry 5). -/
  mem : List Host.Cell
  pins : PinState
  /-- The model's own: how many free values have been used (log entry 8). -/
  freeIndex : Nat
  /-- The model's own: the commands waiting, first in, first out. -/
  pending : List Instr
  deriving DecidableEq, Repr

/-! ### After a hard reset -/

/-- The header's reset values (R3) in the layout of 12.3. -/
def headerReset : Vector Word 32 :=
  Vector.ofFn fun i : Fin 32 =>
    match i.val with
    | 1 => 0x081403E8#32       -- failure limit 8, switch settle 20 ms, duty period 1,000 ms
    | 2 => 0x27102710#32       -- duty limits of sources 1 and 0: 10,000 each
    | 3 => 0x13882710#32       -- warm hold 5,000 ms, duty limit of source 2
    | 4 => 0x01F401F4#32       -- warm-ups of sources 1 and 0: 500 ms each
    | 5 => 0x03E801F4#32       -- shot timeout 1,000 microseconds, warm-up of source 2
    | 7 => 16#32               -- ring capacity
    | 16 => 0x00000700#32      -- the three notice enables
    | 17 => 0x00010000#32      -- view bin 1
    | 18 => 1#32               -- view step 1
    | _ => 0#32

/-- The plan's defaults (R2). -/
def PlanCopy.reset : PlanCopy where
  header := headerReset
  zones := Vector.replicate 128 0#32
  records := Vector.replicate 24 (Vector.replicate 16 0#32)

/-- Plan Capture after a hard reset (R2). -/
def PlanState.reset : PlanState where
  pendingCopy := PlanCopy.reset
  activeCopy := PlanCopy.reset
  headerDirty := false
  zonesDirty := false
  recordDirty := Vector.replicate 24 false
  ringPending := false
  ringFault := false
  lastCommand := ⟨0, 0, .none⟩
  partnerIgnored := Vector.replicate 24 false

/-- The Sweep Sequencer after a hard reset (R22); the mode is the model's choice (log entry 7). -/
def SequencerState.reset : SequencerState where
  state := .off
  sweepNumber := 0
  mode := .once
  acq := none
  comp := none
  cursor := 0
  orderEnded := false
  quietEnd := false
  entered := false
  outcomes := Vector.replicate 24 .notInSweep

/-- Optical Control after a hard reset (R46). -/
def OpticalState.reset : OpticalState where
  port := 63
  settled := false
  settleTimer := none
  warm := ⟨.cold, .cold, .cold⟩
  warmUpTimer := none
  warmHoldTimer := none
  dutyTimer := none
  dutyCount := ⟨0, 0, 0⟩
  spacingTimer := none
  nextSeq := 0
  fired := false
  testActive := false
  pulseWidth := 0
  tagSlot := 0
  tagSeq := 0
  strobes := 0

/-- Shot Intake after a hard reset (R64). -/
def IntakeState.reset : IntakeState where
  outstanding := []
  buffer0 := .free
  buffer1 := .free
  framing := none
  failures := 0
  accepted := Vector.replicate 24 0
  rejected := Vector.replicate 24 0
  lost := Vector.replicate 24 0
  lastReject := Vector.replicate 24 .none
  stray := false

/-- The Accumulation Engine after a hard reset (R84). -/
def AccumState.reset : AccumState where
  queue := []
  add := none
  lock := Vector.replicate 24 .free
  ready := Vector.replicate 24 false
  clippedContent := Vector.replicate 24 false

/-- The Trace Engine after a hard reset (R105, R130, R166). -/
def TraceState.reset : TraceState where
  summary := CondSet.empty
  capture := none
  captureOverrun := false
  clipNote := Vector.replicate 24 false
  seen := Vector.replicate 24 CondSet.empty
  glitchCount := Vector.replicate 24 0
  bg := none
  squeezed := false
  view := none

/-- The Verdict Unit after a hard reset (R131). -/
def VerdictState.reset : VerdictState where
  table := Vector.replicate 24 ⟨false, .unknown, 0, 0, false, none⟩
  judgements := Vector.replicate 24 .notEntered
  inputs := Vector.replicate 24 none

/-- The Findings Unit after a hard reset (R148). -/
def FindingsState.reset : FindingsState where
  post := 0
  taken := 0
  seq := 0
  fill := 0
  queue := []
  headWord := 0
  headBase := 0
  resetCapture := 4
  ringFull := false
  takenRefused := false
  sweepEndNotice := false
  captureNotice := false
  posted := 0
  deferred := 0

/-- The status image after a hard reset: all words 0 but the selected port, 63, at 0x918 (R177, 12.4); all dirty. -/
def MirrorState.reset : MirrorState where
  image := (Vector.replicate 224 0#32).set 6 63#32
  dirty := Vector.replicate 224 true

/-- The Memory Path Unit after a hard reset (R169, R173, R175). -/
def PathState.reset : PathState where
  pass := none
  passCount := 0
  guards := []
  strayAccess := false
  guardHit := false
  waiting := []
  readData := 0

/-- The part right after a hard reset, the reset line deasserted again (R178); the levels of the input lines and the
contents of memory are the model's choice (log entries 5, 6). -/
def State.reset : State where
  plan := PlanState.reset
  seq := SequencerState.reset
  opt := OpticalState.reset
  intake := IntakeState.reset
  accum := AccumState.reset
  trace := TraceState.reset
  verdict := VerdictState.reset
  findings := FindingsState.reset
  mirror := MirrorState.reset
  path := PathState.reset
  mem := []
  pins := ⟨false, false, false, false⟩
  freeIndex := 0
  pending := []

end Sys2Proof.Machine
end

