-- ==== Sys2Proof/Machine/Operands.lean ====
section
/-! DEFINITION. The fields of the plan as the part acts on them: bit positions of 12.3, clamps of R3, R4, R5, R6. -/

namespace Sys2Proof.Machine

/-- Bits `lo` to `lo + len - 1` of a word, as a number (R176). -/
def field (w : Word) (lo len : Nat) : Nat := w.toNat / 2 ^ lo % 2 ^ len

/-- One bit of a word (R176). -/
def flagBit (w : Word) (i : Nat) : Bool := w.getLsbD i

/-- A value clamped to lie from `lo` to `hi`. -/
def clampNat (lo hi n : Nat) : Nat := if n < lo then lo else if n > hi then hi else n

/-! ### Words merged byte by byte -/

/-- One byte of a word, byte 0 the least significant (chapter 12). -/
def byteOf (w : Word) (i : Nat) : Byte := w.extractLsb' (8 * i) 8

/-- A word from its four bytes, `b0` at the lowest address (chapter 12). -/
def wordOfBytes (b0 b1 b2 b3 : Byte) : Word := b3 ++ b2 ++ b1 ++ b0

/-- Each byte whose enable is set replaces the byte of the old word (R1, R168). -/
def mergeWord (be : Enables) (new old : Word) : Word :=
  let pick (i : Nat) : Byte := if be.getLsbD i then byteOf new i else byteOf old i
  wordOfBytes (pick 0) (pick 1) (pick 2) (pick 3)

/-! ### Header fields (R3) -/

/-- Sweep mode; the fourth code acts as ONCE. -/
def headerMode (h : Vector Word 32) : SweepMode :=
  match field h[0] 0 2 with
  | 1 => .loop
  | 2 => .triggered
  | _ => .once

def headerPauseOnRestart (h : Vector Word 32) : Bool := flagBit h[0] 2

/-- The sense of the trigger edge that counts. -/
def headerTriggerEdge (h : Vector Word 32) : EdgeSense := if flagBit h[0] 3 then .falling else .rising

/-- The dispositions: a condition is in the set when its disposition is STOPPING. -/
def headerStopping (h : Vector Word 32) : CondSet := ⟨flagBit h[0] 4, flagBit h[0] 5, flagBit h[0] 6⟩

/-- Test-active start is FIRST FIRE. -/
def headerFirstFire (h : Vector Word 32) : Bool := flagBit h[0] 8

/-- Test-active end is LAST ACCEPTED. -/
def headerLastAccepted (h : Vector Word 32) : Bool := flagBit h[0] 9

/-- Test-active polarity is ASSERTED LOW. -/
def headerAssertedLow (h : Vector Word 32) : Bool := flagBit h[0] 10

def headerDutyPeriod (h : Vector Word 32) : Nat := clampNat 100 10000 (field h[1] 0 16)

def headerSwitchSettle (h : Vector Word 32) : Nat := max 1 (field h[1] 16 8)

def headerFailureLimit (h : Vector Word 32) : Nat := max 1 (field h[1] 24 8)

/-- The duty limit of a source; a source code of 3 has none (R5: it is a plan fault). -/
def headerDutyLimit (h : Vector Word 32) (source : BitVec 2) : Nat :=
  match source.toNat with
  | 0 => field h[2] 0 16
  | 1 => field h[2] 16 16
  | 2 => field h[3] 0 16
  | _ => 0

def headerWarmHold (h : Vector Word 32) : Nat := field h[3] 16 16

/-- The warm-up of a source. -/
def headerWarmUp (h : Vector Word 32) (source : BitVec 2) : Nat :=
  clampNat 1 2000 (match source.toNat with
    | 0 => field h[4] 0 16
    | 1 => field h[4] 16 16
    | _ => field h[5] 0 16)

def headerShotTimeout (h : Vector Word 32) : Nat := max 10 (field h[5] 16 16)

/-- The ring base as acted on: the two lowest address bits are taken as 0. -/
def headerRingBase (h : Vector Word 32) : Nat := h[6].toNat / 4 * 4

/-- The largest power of two, from 16 to 1,024, that is not above the value. -/
def floorPower (n : Nat) : Nat :=
  if n < 32 then 16 else if n < 64 then 32 else if n < 128 then 64 else if n < 256 then 128
  else if n < 512 then 256 else if n < 1024 then 512 else 1024

/-- The ring capacity as acted on (R4). -/
def headerRingCapacity (h : Vector Word 32) : Nat := floorPower (field h[7] 0 16)

def headerHold (h : Vector Word 32) : Bool := flagBit h[16] 0

def headerFindingsEnable (h : Vector Word 32) : Bool := flagBit h[16] 8

def headerSweepEndEnable (h : Vector Word 32) : Bool := flagBit h[16] 9

def headerCaptureEnable (h : Vector Word 32) : Bool := flagBit h[16] 10

def headerViewFormat (h : Vector Word 32) : ViewFormat :=
  match field h[16] 16 2 with
  | 0 => .linear
  | 1 => .level
  | 2 => .deviation
  | _ => .packed

/-- View rounding is TOWARD ZERO. -/
def headerTowardZero (h : Vector Word 32) : Bool := flagBit h[16] 18

/-- The view slot: 24 to 31 become 23 (R158). -/
def headerViewSlot (h : Vector Word 32) : SlotIx :=
  if hlt : field h[16] 24 5 < 24 then ⟨field h[16] 24 5, hlt⟩ else 23

def headerViewStart (h : Vector Word 32) : Nat := field h[17] 0 14

/-- The view bin: the next lower of 1, 2, 4, 8, 16; 0 becomes 1 (R158). -/
def headerViewBin (h : Vector Word 32) : Nat :=
  let b := field h[17] 16 5
  if b < 2 then 1 else if b < 4 then 2 else if b < 8 then 4 else if b < 16 then 8 else 16

/-- The view step: below the bin becomes the bin, otherwise rounded down to a multiple of it (R158). -/
def headerViewStep (h : Vector Word 32) : Nat :=
  let b := headerViewBin h
  let t := field h[18] 0 16
  if t < b then b else t / b * b

/-- The ring fields as written: what makes a presented pair differ (R13). -/
def headerRingWritten (h : Vector Word 32) : Word × Nat := (h[6], field h[7] 0 16)

/-! ### Slot record fields (R5) -/

def recEnable (r : Record16) : Bool := flagBit r[0] 0

def recPort (r : Record16) : BitVec 6 := r[0].extractLsb' 8 6

def recSource (r : Record16) : BitVec 2 := r[0].extractLsb' 16 2

def recPulse (r : Record16) : BitVec 3 := r[0].extractLsb' 24 3

/-- Report policy is EVERY. -/
def recEvery (r : Record16) : Bool := flagBit r[0] 28

/-- Clip policy is REJECT. -/
def recRejectClipped (r : Record16) : Bool := flagBit r[0] 29

/-- The point count N. -/
def recPoints (r : Record16) : Nat := clampNat 256 16384 (field r[1] 0 16) / 256 * 256

def recSpacing (r : Record16) : Nat := max 2 (field r[1] 16 16)

def recTarget (r : Record16) : Nat := max 1 (field r[2] 0 20)

def recDark (r : Record16) : Nat := field r[3] 0 16

def recConfirm (r : Record16) : Nat := clampNat 1 64 (field r[3] 16 8)

def recBendRatio (r : Record16) : Nat := max 16 (field r[3] 24 8)

def recAccBase (r : Record16) : Nat := r[4].toNat / 4 * 4

def recBaseBase (r : Record16) : Nat := r[5].toNat / 4 * 4

def recCompareStart (r : Record16) : Nat := field r[6] 0 14

/-- The compare end: at or beyond N it becomes N - 1. -/
def recCompareEnd (r : Record16) : Nat := min (field r[6] 16 14) (recPoints r - 1)

def recFirstZone (r : Record16) : Nat := field r[7] 0 6

def recZoneCount (r : Record16) : Nat := min 8 (field r[7] 8 4)

/-- The partner: NONE, or a slot number; a number above 23 acts as NONE. -/
def recPartner (r : Record16) : Option SlotIx :=
  if flagBit r[7] 23 then
    if h : field r[7] 16 5 < 24 then some ⟨field r[7] 16 5, h⟩ else none
  else none

/-- The floor level, signed millidB. -/
def recFloor (r : Record16) : Int := (r[8].extractLsb' 0 16).toInt

def recPairTolerance (r : Record16) : Nat := field r[8] 16 8

def recRelocateTolerance (r : Record16) : Nat := field r[8] 24 8

def recInjected (r : Record16) : Nat := field r[9] 0 20

/-! ### Zones (R6, R110) -/

/-- Zone entry `z` of a zone table. -/
def zoneEntry (zones : Vector Word 128) (z : Fin 64) : Zone :=
  { start := field zones[2 * z.val] 0 14
    low := field zones[2 * z.val + 1] 0 16
    high := field zones[2 * z.val + 1] 16 16 }

/-- A slot's zone sequence: as many entries from its first zone as its clamped zone count, stopping after entry 63
(R110). -/
def zoneSequence (zones : Vector Word 128) (r : Record16) : List Zone :=
  (List.range (recZoneCount r)).filterMap fun i =>
    if h : recFirstZone r + i < 64 then some (zoneEntry zones ⟨recFirstZone r + i, h⟩) else none

/-- The margins of a point, low then high: those of the last entry of the sequence that starts at or below it, else of
the first entry, else 0 and 0 (R110). -/
def marginsAt (zs : List Zone) (i : Nat) : Nat × Nat :=
  match (zs.filter fun z => z.start ≤ i).getLast? with
  | some z => (z.low, z.high)
  | none =>
    match zs.head? with
    | some z => (z.low, z.high)
    | none => (0, 0)

end Sys2Proof.Machine
end

