-- ==== Sys2Proof/Machine/Ops.lean ====
section
/-! DEFINITION. The named operations the blocks share: values kept per slot and per source, trace memory, guards and
snoops. -/

namespace Sys2Proof.Machine

/-! ### Values kept per slot and per source -/

/-- The value of slot `k` replaced by its image under `f`. -/
def modifySlot {α : Type} (v : Slots α) (k : SlotIx) (f : α → α) : Slots α := v.set k (f v[k])

/-- Every slot's value replaced by its image under `f`, which may look at the slot. -/
def mapSlots {α β : Type} (v : Slots α) (f : SlotIx → α → β) : Slots β := Vector.ofFn fun k : Fin 24 => f k v[k]

/-- The value of a source; code 3 names no source and reads as the default given (log entry 27). -/
def sourceGet {α : Type} (v : Sources α) (source : BitVec 2) (default : α) : α :=
  match source.toNat with
  | 0 => v.s0
  | 1 => v.s1
  | 2 => v.s2
  | _ => default

/-- The value of one source replaced; code 3 changes nothing (log entry 27). -/
def sourceSet {α : Type} (v : Sources α) (source : BitVec 2) (a : α) : Sources α :=
  match source.toNat with
  | 0 => { v with s0 := a }
  | 1 => { v with s1 := a }
  | 2 => { v with s2 := a }
  | _ => v

/-! ### Trace memory -/

/-- The addresses of the list rise strictly from above `lo`, and no listed byte is 0. -/
def memWfFrom : Option Nat → List Host.Cell → Bool
  | _, [] => true
  | lo, (a, b) :: rest =>
    (match lo with | none => true | some l => l < a) && (b != 0#8) && memWfFrom (some a) rest

/-- The canonical form of a memory: addresses strictly rising, no entry equal to what an unlisted address reads as
(log entry 5). -/
def Memory.wf (m : List Host.Cell) : Bool := memWfFrom none m

/-- One byte of memory; an unlisted byte reads 0 (log entry 5). -/
def readByte : List Host.Cell → Nat → Byte
  | [], _ => 0#8
  | (a, b) :: rest, x => if x = a then b else readByte rest x

/-- One byte of memory written, in canonical form. -/
def writeByte : List Host.Cell → Nat → Byte → List Host.Cell
  | [], x, v => if v = 0#8 then [] else [(x, v)]
  | (a, b) :: rest, x, v =>
    if x < a then (if v = 0#8 then (a, b) :: rest else (x, v) :: (a, b) :: rest)
    else if x = a then (if v = 0#8 then rest else (x, v) :: rest)
    else (a, b) :: writeByte rest x v

/-- The first byte address beyond trace memory: 16 MiB (chapter 00). -/
def memoryEnd : Nat := 0x1000000

/-- A byte address of the control page's base (R1). -/
def controlPage : Nat := 0xFFF000

/-- The word of trace memory at a word-aligned byte address, bits 7:0 at the lowest address (chapter 12). -/
def readWord (m : List Host.Cell) (a : Nat) : Word :=
  wordOfBytes (readByte m a) (readByte m (a + 1)) (readByte m (a + 2)) (readByte m (a + 3))

/-- One byte of a word written where its enable is set. -/
def writeEnabled (m : List Host.Cell) (a : Nat) (be : Enables) (data : Word) (i : Nat) : List Host.Cell :=
  if be.getLsbD i then writeByte m (a + i) (byteOf data i) else m

/-- A word of trace memory written: only the bytes whose enables are set change (R168). An address beyond trace memory
reaches no memory (log entry 17). -/
def writeWord (m : List Host.Cell) (a : Nat) (be : Enables) (data : Word) : List Host.Cell :=
  if a < memoryEnd then
    writeEnabled (writeEnabled (writeEnabled (writeEnabled m a be data 0) a be data 1) a be data 2) a be data 3
  else m

/-- The word-aligned byte address of an access: the two lowest address bits are ignored (R167). -/
def Access.word (a : Access) : Nat := a.addr.toNat / 4 * 4

/-! ### Ranges of words, guards and snoops -/

/-- The word at byte address `a` lies in the range of `n` words from `base`. -/
def inRange (a base n : Nat) : Bool := base ≤ a && a < base + 4 * n

/-- Two ranges of words share a byte. -/
def rangesMeet (b1 n1 b2 n2 : Nat) : Bool := b1 < b2 + 4 * n2 && b2 < b1 + 4 * n1

/-- The active record of a slot. -/
def activeRecord (s : State) (k : SlotIx) : Record16 := s.plan.activeCopy.records[k]

/-- The active header. -/
def activeHeader (s : State) : Vector Word 32 := s.plan.activeCopy.header

/-- The hold flag (R7, R11; log entry 22). -/
def holdFlag (s : State) : Bool := headerHold (activeHeader s)

/-- The word lies in the slot's active accumulator buffer (R171). -/
def inAccBuffer (s : State) (k : SlotIx) (a : Nat) : Bool :=
  inRange a (recAccBase (activeRecord s k)) (recPoints (activeRecord s k))

/-- The word lies in the slot's active baseline buffer (R171). -/
def inBaseBuffer (s : State) (k : SlotIx) (a : Nat) : Bool :=
  inRange a (recBaseBase (activeRecord s k)) (recPoints (activeRecord s k))

/-- A word classed as memory that some guard entry covers (R170). -/
def guarded (s : State) (a : Nat) : Bool :=
  a < controlPage && s.path.guards.any fun g => inRange a g.base g.words

/-- A guard entry placed (R169). -/
def placeGuard (g : Guard) (s : State) : State := { s with path.guards := s.path.guards ++ [g] }

/-- The guard entries of one holder and slot lifted (R169). -/
def liftGuard (holder : GuardHolder) (k : SlotIx) (s : State) : State :=
  { s with path.guards := s.path.guards.filter fun g => !(g.holder = holder && g.slot = k) }

/-- The ready flag of a slot cleared or set (R90, R91). -/
def setReady (k : SlotIx) (v : Bool) (s : State) : State := { s with accum.ready := s.accum.ready.set k v }

/-- The based flag of a slot cleared or set (R133, R134). -/
def setBased (k : SlotIx) (v : Bool) (s : State) : State :=
  { s with verdict.table := modifySlot s.verdict.table k fun e => { e with based := v } }

/-- Flags cleared for a write to the word at `a` that reaches memory: the ready flag of every slot whose active
accumulator buffer holds it but `ownAcc`, and the based flag of every slot whose active baseline buffer holds it but
`ownBase` (R171, R172, R91, R133). -/
def snoop (a : Nat) (ownAcc ownBase : Option SlotIx) (s : State) : State :=
  { s with
    accum.ready := mapSlots s.accum.ready fun k r => r && !(inAccBuffer s k a && ownAcc != some k)
    verdict.table := mapSlots s.verdict.table fun k e =>
      { e with based := e.based && !(inBaseBuffer s k a && ownBase != some k) } }

/-- A condition put into a set. -/
def CondSet.insert (c : Condition) (x : CondSet) : CondSet :=
  match c with
  | .saturated => { x with saturated := true }
  | .gap => { x with gap := true }
  | .clipped => { x with clipped := true }

/-- A condition is in a set. -/
def CondSet.has (c : Condition) (x : CondSet) : Bool :=
  match c with
  | .saturated => x.saturated
  | .gap => x.gap
  | .clipped => x.clipped

/-- No condition is in the set. -/
def CondSet.isEmpty (x : CondSet) : Bool := !x.saturated && !x.gap && !x.clipped

/-- An ADOPT or COMPARE-COMMAND is in flight: what defers applications (R10). -/
def deferring (s : State) : Bool :=
  match s.trace.bg with
  | some b => b.op != .compareRun
  | none => false

end Sys2Proof.Machine
end

