-- ==== Sys2Proof/Machine/Flags.lean ====
section
/-! DEFINITION. Every flag and status the part shows: the codes of 12.2, the words of the status mirror (12.4), the
dirty marks (R156), and the lines computed from the state (R49, R62, R154). -/

namespace Sys2Proof.Machine

/-! ### Codes (12.2) -/

def kindCode : Kind → Nat
  | .unknown => 0
  | .unbased => 1
  | .clear => 2
  | .reflection => 3
  | .loss => 4
  | .bend => 5
  | .brk => 6
  | .anomaly => 7
  | .live => 8
  | .faulted => 9
  | .lossCandidate => 0   -- a result kind only: no layout shows it (R132)

def acqPhaseCode : AcqPhase → Nat
  | .settling => 1
  | .guarding => 2
  | .firing => 3
  | .resting => 4
  | .awaiting _ => 5

def compPhaseCode : CompPhase → Nat
  | .comparing => 6
  | .posting _ => 7

def outcomeCode : SlotOutcome → Nat
  | .notInSweep => 0
  | .done => 1
  | .live => 2
  | .faulted => 3
  | .notRun => 4
  | .planFault => 5

def stateCode : SeqState → Nat
  | .off => 0
  | .idle => 1
  | .waiting => 2
  | .sweeping => 3
  | .paused => 4
  | .halted => 5

def rejectCode : RejectReason → Nat
  | .none => 0
  | .check => 1
  | .truncated => 2
  | .misordered => 3
  | .partialWrite => 4
  | .clipped => 5

def warmCode : WarmState → Nat
  | .cold => 0
  | .warming => 1
  | .warm => 2

def conditionCode : Condition → Nat
  | .saturated => 0
  | .gap => 1
  | .clipped => 2

/-- The background operation field of the general part. -/
def bgCode : BgOp → Nat
  | .compareRun => 1
  | .adopt => 2
  | .compareCommand => 3

/-- The operation field of the capture record. -/
def captureOpCode : BgOp → Nat
  | .compareRun => 0
  | .compareCommand => 1
  | .adopt => 2

def faultCode : FaultReason → Nat
  | .none => 0
  | .sampler => 1
  | .condition => 2

def cmdOutcomeCode : CmdOutcome → Nat
  | .none => 0
  | .accepted => 1
  | .refusedState => 2
  | .refusedBusy => 3
  | .refusedOperand => 4
  | .refusedNotReady => 5
  | .refusedForm => 6
  | .unknownCode => 7

def modeCode : SweepMode → Nat
  | .once => 0
  | .loop => 1
  | .triggered => 2

def reasonCode : EndReason → Nat
  | .complete => 0
  | .stopped => 1
  | .restarted => 2
  | .headerFault => 3
  | .quiet => 4

/-- A number placed in `len` bits at bit `lo` of a word. -/
def place (n lo len : Nat) : Nat := n % 2 ^ len * 2 ^ lo

/-- A flag placed at one bit. -/
def placeBit (b : Bool) (i : Nat) : Nat := if b then 2 ^ i else 0

/-! ### The general part, 0x900 to 0x97F (12.4) -/

def acqSlotCode (s : State) : Nat :=
  match s.seq.acq with
  | some l => l.slot.val
  | none => 0

def acqLaneCode (s : State) : Nat :=
  match s.seq.acq with
  | some l => acqPhaseCode l.phase
  | none => 0

def compSlotCode (s : State) : Nat :=
  match s.seq.comp with
  | some l => l.slot.val
  | none => 0

def compLaneCode (s : State) : Nat :=
  match s.seq.comp with
  | some l => compPhaseCode l.phase
  | none => 0

def bgOpCode (s : State) : Nat :=
  match s.trace.bg with
  | some b => bgCode b.op
  | none => 0

def bgSlotCode (s : State) : Nat :=
  match s.trace.bg with
  | some b => b.slot.val
  | none => 0

/-- Word 0x914: the flags, notices and marks. -/
def flagsWord (s : State) : Nat :=
  placeBit s.findings.ringFull 0 + placeBit s.findings.takenRefused 1 + placeBit s.findings.sweepEndNotice 2 +
  placeBit s.findings.captureNotice 3 + placeBit s.plan.ringPending 4 + placeBit s.plan.ringFault 5 +
  placeBit s.trace.summary.saturated 8 + placeBit s.trace.summary.gap 9 + placeBit s.trace.summary.clipped 10 +
  placeBit s.trace.captureOverrun 11 + placeBit s.path.strayAccess 16 + placeBit s.intake.stray 17 +
  placeBit s.path.guardHit 18 + placeBit s.trace.squeezed 19

/-- Word `i` of the general part. -/
def generalWord (s : State) (i : Nat) : Word :=
  match i with
  | 0 => s.seq.sweepNumber
  | 1 => BitVec.ofNat 32 (place (stateCode s.seq.state) 0 3 + place (acqSlotCode s) 8 5 + place (acqLaneCode s) 16 4 +
      place (compSlotCode s) 24 5)
  | 2 => BitVec.ofNat 32 (place (compLaneCode s) 0 4 + place (bgOpCode s) 8 2 + place (bgSlotCode s) 16 5)
  | 3 => BitVec.ofNat 32 (place s.plan.lastCommand.code.toNat 0 8 + place s.plan.lastCommand.tag.toNat 8 8 +
      place (cmdOutcomeCode s.plan.lastCommand.outcome) 16 3)
  | 4 => BitVec.ofNat 32 (place s.findings.post.toNat 0 16 + place s.findings.taken.toNat 16 16)
  | 5 => BitVec.ofNat 32 (flagsWord s)
  | 6 => BitVec.ofNat 32 (place s.opt.port.toNat 0 6 + place (warmCode s.opt.warm.s0) 8 2 +
      place (warmCode s.opt.warm.s1) 10 2 + place (warmCode s.opt.warm.s2) 12 2)
  | 7 => BitVec.ofNat 32 (place s.opt.dutyCount.s0 0 16 + place s.opt.dutyCount.s1 16 16)
  | 8 => BitVec.ofNat 32 (place s.opt.dutyCount.s2 0 16)
  | _ => 0#32

/-! ### The slot status entries, 0x980 + 32 k (12.4) -/

/-- The phase of a slot: its lane's, or NOT IN LANE (R45). -/
def slotPhaseCode (s : State) (k : SlotIx) : Nat :=
  match s.seq.acq, s.seq.comp with
  | some a, some c =>
    if a.slot = k then acqPhaseCode a.phase else if c.slot = k then compPhaseCode c.phase else 0
  | some a, none => if a.slot = k then acqPhaseCode a.phase else 0
  | none, some c => if c.slot = k then compPhaseCode c.phase else 0
  | none, none => 0

/-- Word `w` of slot `k`'s status entry. -/
def slotWord (s : State) (k : SlotIx) (w : Nat) : Word :=
  match w with
  | 0 => BitVec.ofNat 32 (place (slotPhaseCode s k) 0 4 + place (outcomeCode s.seq.outcomes[k]) 4 3 +
      placeBit s.accum.ready[k] 8 + placeBit s.verdict.table[k].based 9 + placeBit s.verdict.table[k].unposted 10 +
      placeBit s.plan.partnerIgnored[k] 11 + placeBit s.trace.seen[k].saturated 12 + placeBit s.trace.seen[k].gap 13 +
      placeBit s.trace.seen[k].clipped 14 + place (rejectCode s.intake.lastReject[k]) 16 3 +
      place (kindCode s.verdict.table[k].kind) 24 4)
  | 1 => BitVec.ofNat 32 (place s.intake.accepted[k] 0 20)
  | 2 => BitVec.ofNat 32 (place s.intake.rejected[k] 0 16 + place s.intake.lost[k] 16 16)
  | 3 => BitVec.ofNat 32 (place s.trace.glitchCount[k] 0 15)
  | 4 => BitVec.ofNat 32 (place s.verdict.table[k].location 0 14)
  | 5 => BitVec.ofInt 32 s.verdict.table[k].magnitude
  | _ => 0#32

/-- Status word `i`: the general part, then the slot status entries (R155, R156). -/
def statusWord (s : State) (i : Nat) : Word :=
  if h : (i - 32) / 8 < 24 then
    if i < 32 then generalWord s i else slotWord s ⟨(i - 32) / 8, h⟩ (i % 8)
  else 0#32

/-- The byte address of status word `i`: the two areas join at 0x980 (R156). -/
def statusAddress (i : Nat) : Nat := 0xFFF900 + 4 * i

/-- The status image takes the values of the contents it shows, and a word that changes becomes dirty (R156). Called
wherever a rule has a block report a change; a call that finds nothing changed changes nothing (log entry 24). -/
def report (s : State) : State :=
  { s with mirror :=
    { image := Vector.ofFn fun i : Fin 224 => statusWord s i.val
      dirty := Vector.ofFn fun i : Fin 224 => s.mirror.dirty[i] || s.mirror.image[i] != statusWord s i.val } }

/-- A status word marked dirty whether or not its value changed (R151, R157). -/
def markDirty (i : Fin 224) (s : State) : State := { s with mirror.dirty := s.mirror.dirty.set i true }

/-! ### The ring and the ALERT line -/

/-- The occupancy of the findings ring (R148). -/
def occupancy (s : State) : Nat := (s.findings.post - s.findings.taken).toNat

/-- The queue record is a finding. -/
def QRecord.isFinding : QRecord → Bool
  | .finding _ => true
  | _ => false

/-- How many findings wait in the record queue (R149). -/
def findingsWaiting (s : State) : Nat := (s.findings.queue.filter QRecord.isFinding).length

/-- The active ring capacity (R4). -/
def ringCapacity (s : State) : Nat := headerRingCapacity (activeHeader s)

/-- The ring has room (R149). -/
def ringRoom (s : State) : Bool := occupancy s + findingsWaiting s < ringCapacity s

/-- The ring is empty, the test of R13 and R151. -/
def ringEmpty (s : State) : Bool := occupancy s = 0 && findingsWaiting s = 0

/-- The ALERT line (R154). -/
def alertLine (s : State) : Bool :=
  let h := activeHeader s
  (headerFindingsEnable h && occupancy s != 0) ||
  (headerSweepEndEnable h && s.findings.sweepEndNotice) ||
  (headerCaptureEnable h && s.findings.captureNotice)

/-! ### Optical lines -/

/-- The laser source select lines: the source out of COLD, or NONE, code 3 (R49, R178). -/
def sourceSelectLine (s : State) : BitVec 2 :=
  if s.opt.warm.s0 != .cold then 0 else if s.opt.warm.s1 != .cold then 1 else if s.opt.warm.s2 != .cold then 2 else 3

/-- The level of the test-active line, `true` high, by the active polarity (R62). -/
def testActiveLine (s : State) : Bool := s.opt.testActive != headerAssertedLow (activeHeader s)

end Sys2Proof.Machine
end

