-- ==== Sys2Proof/Machine/Optical.lean ====
section
/-! DEFINITION. Optical Control: the switch (R47, R48), the sources (R49 to R53), firing (R56 to R58, R60, R74, R75) and
the test-active line (R61, R62). -/

namespace Sys2Proof.Machine

/-! ### Staging buffers, as Optical Control sees them (R75) -/

/-- The state of a staging buffer. -/
def bufferAt (s : State) : BufIx → Buffer
  | .b0 => s.intake.buffer0
  | .b1 => s.intake.buffer1

/-- A staging buffer's state replaced. -/
def setBuffer (i : BufIx) (b : Buffer) (s : State) : State :=
  match i with
  | .b0 => { s with intake.buffer0 := b }
  | .b1 => { s with intake.buffer1 := b }

/-- The buffer a fire reserves: buffer 0 if it is FREE, otherwise buffer 1 (R75). -/
def bufferToReserve (s : State) : BufIx := if s.intake.buffer0 = .free then .b0 else .b1

/-- At least one staging buffer is FREE. -/
def someBufferFree (s : State) : Bool := s.intake.buffer0 = .free || s.intake.buffer1 = .free

/-! ### The switch (R47, R48) -/

/-- The switch action of a slot that enters SETTLING with port `p` (R47). -/
def selectPort (p : BitVec 6) (s : State) : State :=
  if p = s.opt.port ∧ s.opt.settled = true then s
  else { s with
    opt.port := p
    opt.settled := false
    opt.settleTimer := some (headerSwitchSettle (activeHeader s)) }

/-- The switch parked (R48). -/
def parkSwitch (s : State) : State :=
  { s with opt.port := 63, opt.settled := false, opt.settleTimer := none }

/-- A settle timer that a slot's abandonment cuts short stops; the port stays UNSETTLED (R48). -/
def stopSettle (s : State) : State := { s with opt.settleTimer := none }

/-! ### The sources (R49 to R53) -/

/-- The warm state of a source. -/
def warmOf (s : State) (source : BitVec 2) : WarmState := sourceGet s.opt.warm source .cold

/-- A source timer stopped if it runs for the source. -/
def stopFor (source : BitVec 2) : Option SourceTimer → Option SourceTimer
  | some t => if t.source = source then none else some t
  | none => none

/-- A source timer stopped unless it runs for the source. -/
def keepFor (source : BitVec 2) : Option SourceTimer → Option SourceTimer
  | some t => if t.source = source then some t else none
  | none => none

/-- A source turns COLD, with its timers (R49, R52). -/
def coldSource (source : BitVec 2) (s : State) : State :=
  { s with
    opt.warm := sourceSet s.opt.warm source .cold
    opt.warmUpTimer := stopFor source s.opt.warmUpTimer
    opt.warmHoldTimer := stopFor source s.opt.warmHoldTimer }

/-- Every source turns COLD and both timers stop (R53). -/
def coldAll (s : State) : State :=
  { s with opt.warm := ⟨.cold, .cold, .cold⟩, opt.warmUpTimer := none, opt.warmHoldTimer := none }

/-- Every other source turned COLD, with its timers (R49). -/
def coldOthers (source : BitVec 2) (w : Sources WarmState) : Sources WarmState :=
  sourceSet ⟨.cold, .cold, .cold⟩ source (sourceGet w source .cold)

/-- The source action of a slot that enters SETTLING (R50). -/
def warmSource (source : BitVec 2) (s : State) : State :=
  if warmOf s source = .cold then
    { s with
      opt.warm := sourceSet (coldOthers source s.opt.warm) source .warming
      opt.warmUpTimer := some ⟨source, headerWarmUp (activeHeader s) source⟩
      opt.warmHoldTimer := none }
  else { s with opt.warmHoldTimer := stopFor source s.opt.warmHoldTimer }

/-- The shot-spacing timer set elapsed (R58). -/
def spacingElapsed (s : State) : State := { s with opt.spacingTimer := none }

/-- Test-active deasserted (R62). -/
def deassertTestActive (s : State) : State := { s with opt.testActive := false }

/-- A slot leaves the acquisition lane by its move, or by an abandonment that leaves its source to the warm hold: the
warm-hold timer starts, and a warm hold of 0 turns the source COLD at once (R52, R62). -/
def leaveLane (source : BitVec 2) (s : State) : State :=
  let s1 := deassertTestActive s
  if headerWarmHold (activeHeader s) = 0 then coldSource source s1
  else { s1 with opt.warmHoldTimer := some ⟨source, headerWarmHold (activeHeader s)⟩ }

/-- Optical Control takes up a slot that enters SETTLING: test-active under SLOT START, the switch, the source, and the
run's sequence and spacing (R47, R50, R58, R61). -/
def opticalEntry (k : SlotIx) (s : State) : State :=
  let r := activeRecord s k
  let s1 := if headerFirstFire (activeHeader s) then s else { s with opt.testActive := true }
  let s2 := warmSource (recSource r) (selectPort (recPort r) s1)
  { s2 with opt.nextSeq := 0, opt.spacingTimer := none, opt.fired := false }

/-! ### Firing (R56, R57, R60) -/

/-- The committed count of a slot: accepted, queued, accumulating and outstanding records of the run (R56). -/
def committed (s : State) (k : SlotIx) : Nat :=
  s.intake.accepted[k] + s.accum.queue.length + (if s.accum.add.isSome then 1 else 0) + s.intake.outstanding.length

/-- Conditions 1 to 5 and 7 of R56 for slot `k` in FIRING: all but the duty limit. -/
def fireAllowedButDuty (s : State) (k : SlotIx) : Bool :=
  s.seq.state = .sweeping && s.intake.outstanding.length < 2 && someBufferFree s &&
  committed s k < recTarget (activeRecord s k) && s.opt.spacingTimer.isNone && s.pins.gate && !s.pins.liveLight

/-- Condition 6 of R56: the duty count of the slot's source is below its duty limit. -/
def dutyAllows (s : State) (k : SlotIx) : Bool :=
  let src := recSource (activeRecord s k)
  sourceGet s.opt.dutyCount src 0 < headerDutyLimit (activeHeader s) src

/-- A fire of slot `k` (R57, R74, R75). -/
def fire (k : SlotIx) (s : State) : State :=
  let r := activeRecord s k
  let src := recSource r
  let b := bufferToReserve s
  let s1 := setBuffer b .reserved { s with
    intake.outstanding :=
      s.intake.outstanding ++ [⟨s.opt.nextSeq, headerShotTimeout (activeHeader s), b⟩] }
  { s1 with
    opt.dutyCount := sourceSet s.opt.dutyCount src (sourceGet s.opt.dutyCount src 0 + 1)
    opt.nextSeq := s.opt.nextSeq + 1
    opt.spacingTimer := some (recSpacing r)
    opt.testActive := s.opt.testActive || (headerFirstFire (activeHeader s) && !s.opt.fired)
    opt.fired := true
    opt.pulseWidth := recPulse r
    opt.tagSlot := BitVec.ofNat 5 k.val
    opt.tagSeq := s.opt.nextSeq
    opt.strobes := s.opt.strobes + 1 }

/-- The firing test: a slot in FIRING is fired when every condition holds, and enters RESTING when the duty limit alone
stops it (R56, R60). -/
def testFire (s : State) : State :=
  match s.seq.acq with
  | some l =>
    if l.phase = .firing ∧ fireAllowedButDuty s l.slot = true then
      if dutyAllows s l.slot then fire l.slot s
      else report { s with seq.acq := some ⟨l.slot, .resting⟩ }
    else s
  | none => s

end Sys2Proof.Machine
end

