-- ==== Sys2Proof/Machine/Arithmetic.lean ====
section
/-! DEFINITION. Trace Arithmetic (chapter 6), the check value (R66) and the view conversions (R106, R107). -/

namespace Sys2Proof.Machine

/-! ### The check value (R66) -/

/-- One bit fed to the check register. -/
def crcBit (reg : BitVec 16) (b : Bool) : BitVec 16 :=
  if reg.msb != b then (reg <<< 1) ^^^ 0x1021#16 else reg <<< 1

/-- One byte fed, most significant bit first. -/
def crcByte (reg : BitVec 16) (b : Byte) : BitVec 16 :=
  [7, 6, 5, 4, 3, 2, 1, 0].foldl (fun r i => crcBit r (b.getLsbD i)) reg

/-- One word fed, most significant byte first. -/
def crcWord (reg : BitVec 16) (w : Word) : BitVec 16 :=
  [3, 2, 1, 0].foldl (fun r i => crcByte r (byteOf w i)) reg

/-- The preset of the check register. -/
def crcPreset : BitVec 16 := 0xFFFF#16

/-- The sample of a point, from the sample words of a record in order: the even point in the lower half (R65). -/
def sampleAt (samples : List Word) (point : Nat) : Nat := field (samples.getD (point / 2) 0#32) (16 * (point % 2)) 16

/-! ### Levels (R95, R96, R97) -/

/-- The light sum D of a bin of `b` points whose accumulator words add up to `sum` (R95). -/
def lightSum (sum b dark shots : Nat) : Int := (sum : Int) - (b * dark * shots : Nat)

/-- The mean light D / (b S), as a numerator and denominator, limited to 65,535 (R96). -/
def meanLight (d b shots : Nat) : Nat × Nat := if d > 65535 * (b * shots) then (65535, 1) else (d, b * shots)

/-- 5000 log10 m is at or above `l - 1/2`, for m given by its numerator and denominator raised to the 10,000th power:
10^(2 l - 1) is at most m^10000. -/
def levelAtLeast (numPow denPow : Nat) (l : Int) : Bool :=
  let e := 2 * l - 1
  if 0 ≤ e then denPow * 10 ^ e.toNat ≤ numPow else denPow ≤ numPow * 10 ^ (-e).toNat

/-- The greatest level from `lo` on for which `levelAtLeast` holds, where it holds at `lo` and fails at `lo + width`;
each of `n` rounds halves the width. -/
def levelSearch (numPow denPow : Nat) : Nat → Int → Nat → Int
  | 0, lo, _ => lo
  | n + 1, lo, width =>
    let half := width / 2
    if half = 0 then lo
    else if levelAtLeast numPow denPow (lo + half) then levelSearch numPow denPow n (lo + half) (width - half)
    else levelSearch numPow denPow n lo half

/-- The level of a mean light: the integer nearest 5000 log10 m, between -36,124 and 24,082 (R97). -/
def levelOf (num den : Nat) : Int := levelSearch (num ^ 10000) (den ^ 10000) 17 (-36124) 60207

/-- The level of a point or bin with light sum `d` of 1 or above (R97). -/
def level (d b shots : Nat) : Int := levelOf (meanLight d b shots).1 (meanLight d b shots).2

/-- A single point is saturated: its word is the cap, or its mean light is over-range (R96). -/
def saturatedPoint (acc : Word) (dark shots : Nat) : Bool :=
  acc = 0xFFFFFFFF#32 || lightSum acc.toNat 1 dark shots > (65535 * shots : Nat)

/-- The baseline code ABSENT (R98). -/
def absentCode : Int := -2147483648

/-- The code NO LIGHT (R98). -/
def noLightCode : Int := -2147483647

/-- The clamp of deviations and magnitudes where they are reported (R99). -/
def clampMagnitude (x : Int) : Int := max (-2147483646) (min 2147483647 x)

/-- The word added to a sum with saturation (R87). -/
def saturatingAdd (w : Word) (sample : Nat) : Word := BitVec.ofNat 32 (min 4294967295 (w.toNat + sample))

/-! ### View conversions, each with whether it clamped (R106, R107, R108) -/

/-- The LINEAR value (R106). -/
def linearValue (d : Int) (b shots : Nat) : Int × Bool :=
  if d ≤ 0 ∨ shots = 0 then (0, false)
  else
    let v : Int := 16 * d / (b * shots : Nat)
    if v > 2147483647 then (2147483647, true) else (v, false)

/-- A level in centi-dB, rounded by the view rounding: to the nearest with halves to even, or toward zero (R107). -/
def centiLevel (l : Int) (towardZero : Bool) : Int :=
  if towardZero then l.tdiv 10
  else
    let q := l / 10
    let r := l % 10
    if r < 5 then q else if r > 5 then q + 1 else if q % 2 = 0 then q else q + 1

/-- The PACKED value of a level (R107). -/
def packedValue (l : Int) (towardZero : Bool) : Int × Bool :=
  let c := centiLevel l towardZero
  if c > 32767 then (32767, true) else if c < -32767 then (-32767, true) else (c, false)

end Sys2Proof.Machine
end

