-- ==== Sys2Proof/Machine/Findings.lean ====
section
/-! DEFINITION. The Findings Unit's collections: the layouts of its records (12.4, 12.5), handing a finding (R149), the
record queue (R150) and notice requests (R153). -/

namespace Sys2Proof.Machine

/-! ### Layouts of the records -/

/-- The four words of a finding (12.5). -/
def findingWords (f : Finding) : List Word :=
  [ BitVec.ofNat 32 (place f.sequence.toNat 0 16 + place f.slot.val 16 5 + place (kindCode f.newKind) 24 4 +
      place (kindCode f.prevKind) 28 4),
    f.sweep,
    BitVec.ofNat 32 (place f.location 0 14 + place f.port.toNat 16 6 + place f.source.toNat 22 2 +
      placeBit f.paired 24 + placeBit f.reflective 25 + placeBit f.preceded 26 + placeBit f.masked 27 +
      placeBit f.injected 28 + place (faultCode f.reason) 29 2),
    BitVec.ofInt 32 f.magnitude ]

/-- The four words of the capture record; the invalid record is four words of 0 (12.4, R177). -/
def captureWords : Option Capture → List Word
  | none => [0#32, 0#32, 0#32, 0#32]
  | some c =>
    [ BitVec.ofNat 32 (placeBit true 0 + place (captureOpCode c.op) 4 2 + place c.slot.val 8 5 +
        place (conditionCode c.cond) 16 2),
      c.sweep, BitVec.ofNat 32 (place c.point 0 14), 0#32 ]

/-- The word of a summary that holds the outcomes of eight slots from `k0` (12.4). -/
def outcomesWord (v : Slots SlotOutcome) (k0 : Nat) : Word :=
  BitVec.ofNat 32 (((v.toList.drop k0).take 8).foldr (fun o acc => place (outcomeCode o) 0 3 + 16 * acc) 0)

/-- The sixteen words of the sweep summary (12.4). -/
def summaryWords (sm : Summary) : List Word :=
  [ sm.sweep,
    BitVec.ofNat 32 (place (modeCode sm.mode) 0 2 + place (reasonCode sm.reason) 8 3 + placeBit sm.empty 12 +
      place sm.posted 16 5 + place sm.deferred 24 5),
    outcomesWord sm.outcomes 0, outcomesWord sm.outcomes 8, outcomesWord sm.outcomes 16 ] ++
  List.replicate 11 0#32

/-- The words of a record of the queue (R150). -/
def recordWords : QRecord → List Word
  | .finding f => findingWords f
  | .capture c _ => captureWords c
  | .summary sm _ => summaryWords sm

/-- Where the record at the head of the queue is written, as its first word is granted (R150). -/
def recordBase (s : State) : QRecord → Nat
  | .finding _ => headerRingBase (activeHeader s) + s.findings.post.toNat % ringCapacity s * 16
  | .capture _ _ => 0xFFFC80
  | .summary _ _ => 0xFFFCA0

/-! ### Handing findings (R149) -/

/-- The Findings Unit's answer to a finding: `true` is "written", `false` is "deferred" for want of room. -/
def findingAnswer (s : State) : Bool := ringRoom s

/-- A finding handed with room: it takes the finding sequence and joins the queue; one that is not injected is counted. -/
def acceptFinding (f : Finding) (s : State) : State :=
  { s with
    findings.seq := s.findings.seq + 1
    findings.queue := s.findings.queue ++ [.finding { f with sequence := s.findings.seq }]
    findings.posted := if f.injected then s.findings.posted else s.findings.posted + 1 }

/-- A finding handed without room: the ring-full flag is set; one that is not injected is counted. -/
def deferFinding (f : Finding) (s : State) : State :=
  { s with
    findings.ringFull := true
    findings.deferred := if f.injected then s.findings.deferred else s.findings.deferred + 1 }

/-! ### The record queue -/

/-- The record is a capture record. -/
def QRecord.isCapture : QRecord → Bool
  | .capture _ _ => true
  | _ => false

/-- The record is a sweep summary. -/
def QRecord.isSummary : QRecord → Bool
  | .summary _ _ => true
  | _ => false

/-- The record at the head of the queue satisfies `p`. -/
def headIs (p : QRecord → Bool) (q : List QRecord) : Bool :=
  match q.head? with
  | some r => p r
  | none => false

/-- A capture record joins the queue, in the place of one that still waits and with its notice request (R150). One
whose words are partly granted is written again from its first word (log entry 10). -/
def queueCapture (c : Option Capture) (notice : Bool) (s : State) : State :=
  let q := s.findings.queue
  { s with
    findings.queue :=
      if q.any QRecord.isCapture then
        q.map fun r => match r with
          | .capture _ n => .capture c (n || notice)
          | r => r
      else q ++ [.capture c notice]
    findings.headWord := if headIs QRecord.isCapture q then 0 else s.findings.headWord
    findings.resetCapture := 0 }

/-- A sweep summary joins the queue, in the place of one that still waits and with its notice request (R150). -/
def queueSummary (sm : Summary) (notice : Bool) (s : State) : State :=
  let q := s.findings.queue
  { s with
    findings.queue :=
      if q.any QRecord.isSummary then
        q.map fun r => match r with
          | .summary _ n => .summary sm (n || notice)
          | r => r
      else q ++ [.summary sm notice]
    findings.headWord := if headIs QRecord.isSummary q then 0 else s.findings.headWord }

/-- The notice request of a queued capture record withdrawn (R153). -/
def withdrawCaptureNotice (s : State) : State :=
  { s with findings.queue := s.findings.queue.map fun r => match r with
      | .capture c _ => .capture c false
      | r => r }

/-- Every notice request withdrawn (R153, REINIT). -/
def withdrawNotices (s : State) : State :=
  { s with findings.queue := s.findings.queue.map fun r => match r with
      | .capture c _ => .capture c false
      | .summary sm _ => .summary sm false
      | r => r }

/-- What follows the grant of the last word of a record (R150, R145): a finding advances P, raises the ring fill up to
the capacity and moves the slot's standing verdict; a record with a notice request makes its notice pending. -/
def recordWritten (r : QRecord) (s : State) : State :=
  match r with
  | .finding f =>
    markDirty 4 { s with
      findings.post := s.findings.post + 1
      findings.fill := min (ringCapacity s) (s.findings.fill + 1)
      verdict.table := modifySlot s.verdict.table f.slot fun e =>
        { e with
          kind := f.newKind
          location := f.location
          magnitude := f.magnitude
          unposted := false
          inFlight := if e.inFlight = some f then none else e.inFlight } }
  | .capture _ notice =>
    { s with findings.captureNotice := s.findings.captureNotice || notice }
  | .summary _ notice =>
    { s with findings.sweepEndNotice := s.findings.sweepEndNotice || notice }

/-! ### The taken index (R151) -/

/-- (P - t) mod 65,536. -/
def behind (s : State) (t : BitVec 16) : Nat := (s.findings.post - t).toNat

/-- A taken index write is accepted: its two bytes are enabled, and t lies neither behind the ring fill nor so far back
that what waits would not fit (R151). -/
def takenAccepted (s : State) (be : Enables) (t : BitVec 16) : Bool :=
  be.getLsbD 0 && be.getLsbD 1 && behind s t ≤ s.findings.fill && behind s t + findingsWaiting s ≤ ringCapacity s

/-- The Findings Unit's part of a taken index write (R151). -/
def writeTaken (be : Enables) (t : BitVec 16) (s : State) : State :=
  let s1 :=
    if takenAccepted s be t then
      let s0 := { s with findings.taken := t, findings.takenRefused := false }
      { s0 with findings.ringFull := s.findings.ringFull && !ringRoom s0 }
    else { s with findings.takenRefused := true }
  markDirty 5 (markDirty 4 s1)

end Sys2Proof.Machine
end

