-- ==== Sys2Proof/Machine/Verdicts.lean ====
section
/-! DEFINITION. The Verdict Unit: the posting decision (R143 to R145), the pair record (R135 to R139), pair resolution
(R140, R141) and results (R136, R142, R146). -/

namespace Sys2Proof.Machine

/-- A verdict that reaches the posting decision (R143, R144). -/
structure Verdict where
  kind : Kind
  location : Nat
  magnitude : Int
  paired : Bool
  reflective : Bool
  preceded : Bool
  masked : Bool
  injected : Bool
  reason : FaultReason
  sweep : BitVec 32
  deriving DecidableEq, Repr

/-! ### The posting decision -/

/-- The kind and location a verdict is compared with: the finding in flight's, else the standing ones (R143). -/
def comparedWith (e : VerdictEntry) : Kind × Nat :=
  match e.inFlight with
  | some f => (f.newKind, f.location)
  | none => (e.kind, e.location)

/-- The kinds whose location matters under TRANSITIONS (R143). -/
def locatedKind : Kind → Bool
  | .reflection => true
  | .loss => true
  | .bend => true
  | .brk => true
  | .anomaly => true
  | _ => false

/-- The distance of two points along the trace. -/
def pointDistance (a b : Nat) : Nat := (a - b) + (b - a)

/-- A finding is due (R143). -/
def findingDue (r : Record16) (e : VerdictEntry) (v : Verdict) : Bool :=
  recEvery r || (comparedWith e).1 != v.kind ||
    (locatedKind v.kind && pointDistance v.location (comparedWith e).2 > recRelocateTolerance r)

/-- The finding formed for a verdict (R144); the Findings Unit adds the sequence. -/
def formFinding (s : State) (k : SlotIx) (v : Verdict) : Finding where
  sequence := s.findings.seq
  slot := k
  newKind := v.kind
  prevKind := (comparedWith s.verdict.table[k]).1
  sweep := v.sweep
  location := v.location
  port := recPort (activeRecord s k)
  source := recSource (activeRecord s k)
  paired := v.paired
  reflective := v.reflective
  preceded := v.preceded
  masked := v.masked
  injected := v.injected
  reason := v.reason
  magnitude := v.magnitude

/-- The posting decision on a slot's verdict and what follows the Findings Unit's answer (R143, R145, R149). A finding
due and handed on leaves the unposted flag to its ring write: DEDUCED, R145's table and prose differ (log entry 42). -/
def postVerdict (k : SlotIx) (v : Verdict) (s : State) : State :=
  if findingDue (activeRecord s k) s.verdict.table[k] v then
    let f := formFinding s k v
    if findingAnswer s then
      let s1 := acceptFinding f s
      { s1 with verdict.table := modifySlot s1.verdict.table k fun e => { e with inFlight := some f } }
    else
      let s1 := deferFinding f s
      { s1 with verdict.table := modifySlot s1.verdict.table k fun e => { e with unposted := true } }
  else { s with verdict.table := modifySlot s.verdict.table k fun e => { e with unposted := false } }

/-- Verdicts posted in order, each against what the one before it has left (R149). -/
def postVerdicts : List (SlotIx × Verdict) → State → State
  | [], s => s
  | (k, v) :: rest, s => postVerdicts rest (postVerdict k v s)

/-- A result as a verdict of its own kind, the paired flag clear; a LOSS CANDIDATE becomes LOSS (R138, R142, R146). -/
def verdictOf (r : Result) : Verdict where
  kind := if r.kind = .lossCandidate then .loss else r.kind
  location := r.location
  magnitude := r.magnitude
  paired := false
  reflective := r.reflective
  preceded := r.preceded
  masked := !r.masked.isEmpty
  injected := r.injected
  reason := r.reason
  sweep := r.sweep

/-- A pair input as a verdict of the kind it is resolved to, in the sweep in progress (R140, R141, R144). -/
def verdictOfInput (s : State) (x : PairInput) (kind : Kind) (paired : Bool) : Verdict where
  kind := kind
  location := x.location
  magnitude := x.magnitude
  paired := paired
  reflective := false
  preceded := false
  masked := x.masked
  injected := false
  reason := .none
  sweep := s.seq.sweepNumber

/-! ### The pair record -/

/-- The relation of a slot to its partner (R135). -/
inductive Relation where
  | unpaired
  | broken
  | openTo (partner : SlotIx)
  | formed (partner : SlotIx)
  deriving DecidableEq, Repr

/-- The relation judged from the two entry judgements (R135). -/
def relation (s : State) (a : SlotIx) : Relation :=
  match s.verdict.judgements[a] with
  | .names b =>
    match s.verdict.judgements[b] with
    | .notEntered => .openTo b
    | .unpaired => .broken
    | .names c => if c = a then .formed b else .broken
  | _ => .unpaired

/-- A slot's pair input stored (R136). -/
def setInput (k : SlotIx) (x : Option PairInput) (s : State) : State :=
  { s with verdict.inputs := s.verdict.inputs.set k x }

/-- A pair input made of a result (R136). -/
def inputOf (r : Result) (final : Bool) : PairInput :=
  ⟨r.kind, r.location, r.magnitude, final, !r.masked.isEmpty⟩

/-- The pair record cleared (R28 step 5, R135). -/
def clearPairs (s : State) : State :=
  { s with
    verdict.judgements := Vector.replicate 24 .notEntered
    verdict.inputs := Vector.replicate 24 none }

/-- A PENDING input resolved as LOSS with the paired flag clear, and posted; it becomes FINAL (R139, R141). -/
def resolveUnpaired (a : SlotIx) (s : State) : State :=
  match s.verdict.inputs[a] with
  | some x =>
    if x.final then s
    else postVerdict a (verdictOfInput s x .loss false) (setInput a (some { x with kind := .loss, final := true }) s)
  | none => s

/-- The PENDING inputs of the slots listed resolved in order (R141). -/
def resolvePending : List SlotIx → State → State
  | [], s => s
  | a :: rest, s => resolvePending rest (resolveUnpaired a s)

/-- What slot `b`'s entry does to slot `a`: an OPEN relation that names `b`, and that `b`'s judgement does not name,
is BROKEN, and a PENDING input is resolved (R139). -/
def breakPair (b : SlotIx) (judged : Judgement) (a : SlotIx) (s : State) : State :=
  if relation s a = .openTo b ∧ judged ≠ .names a then resolveUnpaired a s else s

/-- The slots of a list for which an entry breaks a pair, in order. -/
def breakPairs (b : SlotIx) (judged : Judgement) : List SlotIx → State → State
  | [], s => s
  | a :: rest, s => breakPairs b judged rest (breakPair b judged a s)

/-- Slot `b`'s entry judgement recorded, after the relations it breaks are resolved (R135, R139). -/
def recordJudgement (b : SlotIx) (judged : Judgement) (s : State) : State :=
  let s1 := breakPairs b judged (List.finRange 24) s
  { s1 with verdict.judgements := s1.verdict.judgements.set b judged }

/-! ### Resolving a pair (R140) -/

/-- What the short and the long slot's inputs resolve to: `none` where the slot was posted as its own kind. The pair
tolerance and bend ratio are the long slot's. -/
def pairKinds (short long : PairInput) (tolerance ratio : Nat) : Option Kind × Option Kind :=
  if short.kind = .lossCandidate ∧ long.kind = .lossCandidate then
    if pointDistance short.location long.location ≤ tolerance then
      if long.magnitude.natAbs * 16 ≥ ratio * short.magnitude.natAbs then (some .bend, some .bend)
      else (some .loss, some .loss)
    else (some .loss, some .loss)
  else if long.kind = .lossCandidate then
    if short.kind = .clear then (none, some .bend) else (none, some .loss)
  else if short.kind = .lossCandidate then (some .loss, none)
  else (none, none)

/-- A slot's part of a resolution: the resolved input, now FINAL, and what it posts, with the paired flag set (R140). -/
def resolvedPart (s : State) (k : SlotIx) (x : PairInput) : Option Kind → State × List (SlotIx × Verdict)
  | some kind =>
    (setInput k (some { x with kind := kind, final := true }) s, [(k, verdictOfInput s x kind true)])
  | none => (setInput k (some { x with final := true }) s, [])

/-- Slot `a`'s source number is below slot `b`'s: `a` is the short slot (R135). -/
def isShort (s : State) (a b : SlotIx) : Bool :=
  (recSource (activeRecord s a)).toNat < (recSource (activeRecord s b)).toNat

/-- The inputs of a FORMED pair resolved, short slot first; `own` are postings of this step that come before the
resolution's for the same slot (R137, R138, R140). -/
def resolvePair (short long : SlotIx) (x y : PairInput) (own : SlotIx → List (SlotIx × Verdict)) (s : State) : State :=
  let r := activeRecord s long
  let kinds := pairKinds x y (recPairTolerance r) (recBendRatio r)
  let p := resolvedPart s short x kinds.1
  let q := resolvedPart p.1 long y kinds.2
  postVerdicts (own short ++ p.2 ++ own long ++ q.2) q.1

/-- The inputs of slot `a` and its partner `b` resolved, the short slot first. -/
def resolveAgainst (a b : SlotIx) (x y : PairInput) (own : SlotIx → List (SlotIx × Verdict)) (s : State) : State :=
  if isShort s a b then resolvePair a b x y own s else resolvePair b a y x own s

/-! ### Taking a result -/

/-- The kinds that a comparison gives and that are posted as their own kind (R137). -/
def storedKind : Kind → Bool
  | .clear => true
  | .reflection => true
  | .brk => true
  | .anomaly => true
  | _ => false

/-- A CLEAR, REFLECTION, BREAK or ANOMALY of a slot whose relation is FORMED or OPEN: stored FINAL, posted, and the
partner's PENDING input resolved in the same step, short slot first (R137). -/
def takeStored (k : SlotIx) (r : Result) (partner : SlotIx) (formed : Bool) (s : State) : State :=
  let x := inputOf r true
  let s1 := setInput k (some x) s
  let own : SlotIx → List (SlotIx × Verdict) := fun j => if j = k then [(k, verdictOf r)] else []
  match s.verdict.inputs[partner] with
  | some y =>
    if formed && !y.final then resolveAgainst k partner x y own s1 else postVerdict k (verdictOf r) s1
  | none => postVerdict k (verdictOf r) s1

/-- A LOSS CANDIDATE of a slot whose relation is FORMED or OPEN (R138). -/
def takeCandidate (k : SlotIx) (r : Result) (partner : SlotIx) (formed : Bool) (s : State) : State :=
  let x := inputOf r false
  let s1 := setInput k (some x) s
  match s.verdict.inputs[partner] with
  | some y => if formed then resolveAgainst k partner x y (fun _ => []) s1 else s1
  | none => s1

/-- The Verdict Unit takes the result of a slot in POSTING (R136, R137, R138, R146). -/
def verdictTake (k : SlotIx) (r : Result) (s : State) : State :=
  match relation s k with
  | .formed b =>
    if r.kind = .lossCandidate then takeCandidate k r b true s
    else if storedKind r.kind then takeStored k r b true s
    else postVerdict k (verdictOf r) s
  | .openTo b =>
    if r.kind = .lossCandidate then takeCandidate k r b false s
    else if storedKind r.kind then takeStored k r b false s
    else postVerdict k (verdictOf r) s
  | _ => postVerdict k (verdictOf r) s

end Sys2Proof.Machine
end

