-- ==== Sys2Proof/Machine/PlanCapture.lean ====
section
/-! DEFINITION. Plan Capture: merging edits (R1, R7, R8), applying them (R9 to R13, R15), the header check (R14), the
plan check (R16) and the partner judgement (R17). -/

namespace Sys2Proof.Machine

/-! ### Applying regions -/

/-- The active header as it becomes when the header region applies: every word of the pending copy but the ring pair,
which waits for R13. The bits of the ring capacity's word that no table names wait with it: DESIGN CHOICE, R8 excepts the
ring fields alone and R176 ignores these bits (log entry 44). -/
def appliedHeader (pending active : Vector Word 32) : Vector Word 32 :=
  (pending.set 6 active[6]).set 7 active[7]

/-- A ring pair lies wholly in trace memory below the control page (R14). -/
def ringFits (h : Vector Word 32) : Bool := headerRingBase h + 16 * headerRingCapacity h ≤ controlPage

/-- The pair is presented: a pending ring field differs from its active counterpart (R13). -/
def ringPresented (s : State) : Bool :=
  headerRingWritten s.plan.pendingCopy.header != headerRingWritten (activeHeader s)

/-- The ring pair presented at a header application, and the marks it leaves (R13, R14, R152). A pair that fails with
the ring empty leaves the ring-pending mark set, also where the mark was clear before: DEDUCED, R13 says that it 'stays
set' (log entry 38). -/
def presentRing (s : State) : State :=
  if ringPresented s then
    if ringEmpty s then
      if ringFits s.plan.pendingCopy.header then
        { s with
          plan.activeCopy.header :=
            ((activeHeader s).set 6 s.plan.pendingCopy.header[6]).set 7 s.plan.pendingCopy.header[7]
          plan.ringPending := false
          plan.ringFault := false
          findings.fill := 0 }
      else { s with plan.ringPending := true, plan.ringFault := true }
    else { s with plan.ringPending := true, plan.ringFault := !ringFits s.plan.pendingCopy.header }
  else { s with plan.ringPending := false, plan.ringFault := false }

/-- The header region applied (R8, R13). -/
def applyHeader (s : State) : State :=
  presentRing { s with
    plan.activeCopy.header := appliedHeader s.plan.pendingCopy.header s.plan.activeCopy.header
    plan.headerDirty := false }

/-- The header region counts as dirty (R8, R13). -/
def headerDue (s : State) : Bool := s.plan.headerDirty || s.plan.ringPending

/-- The header applied if it is due. -/
def applyHeaderIfDue (s : State) : State := if headerDue s then applyHeader s else s

/-- The zone table applied if it is dirty (R8). -/
def applyZonesIfDue (s : State) : State :=
  if s.plan.zonesDirty then
    { s with plan.activeCopy.zones := s.plan.pendingCopy.zones, plan.zonesDirty := false }
  else s

/-- The shape fields of a record (R15). The bases are compared as they act, with their two lowest bits 0: DEDUCED, R15
names a clamp for the point count alone (log entry 39). -/
def shapeOf (r : Record16) : BitVec 6 × BitVec 2 × BitVec 3 × Nat × Nat × Nat :=
  (recPort r, recSource r, recPulse r, recPoints r, recAccBase r, recBaseBase r)

/-- The record of slot `k` applied, with its shape comparison (R8, R15). -/
def applyRecord (k : SlotIx) (s : State) : State :=
  let new := s.plan.pendingCopy.records[k]
  let s1 := { s with
    plan.activeCopy.records := s.plan.activeCopy.records.set k new
    plan.recordDirty := s.plan.recordDirty.set k false }
  if shapeOf new = shapeOf (activeRecord s k) then s1 else setReady k false (setBased k false s1)

/-- The record of slot `k` applied if it is dirty. -/
def applyRecordIfDue (k : SlotIx) (s : State) : State := if s.plan.recordDirty[k] then applyRecord k s else s

/-- The records of a list of slots applied where dirty, in order. -/
def applyRecords : List SlotIx → State → State
  | [], s => s
  | k :: rest, s => applyRecords rest (applyRecordIfDue k s)

/-- Every dirty region applied, unless hold is set: the header, then the zone table, then the records in slot order
(R10, R11, R12). -/
def applyDirty (s : State) : State :=
  if holdFlag s then s else applyRecords (List.finRange 24) (applyZonesIfDue (applyHeaderIfDue s))

/-- Application outside SWEEPING, put off while an ADOPT or COMPARE-COMMAND is in flight (R10). -/
def applyOutside (s : State) : State :=
  if s.seq.state = .sweeping ∨ deferring s = true then s else applyDirty s

/-- The header and zone table applied at a sweep start (R9). -/
def applyAtSweepStart (s : State) : State :=
  if holdFlag s then s else applyZonesIfDue (applyHeaderIfDue s)

/-- The record of slot `k` applied at its entry into the acquisition lane (R9). -/
def applyAtEntry (k : SlotIx) (s : State) : State := if holdFlag s then s else applyRecordIfDue k s

/-- The ring reported empty by a taken index write: a pending pair is presented, outside SWEEPING, with hold clear and
no commanded operation in flight (R13). -/
def ringReportedEmpty (s : State) : State :=
  if s.plan.ringPending && s.seq.state != .sweeping && !holdFlag s && !deferring s then presentRing s else s

/-! ### Merging a write (R1, R7, R8) -/

/-- A header word whose bytes are all immediate: offsets 0x040 to 0x04B (R176). -/
def immediateWord (i : Nat) : Bool := 16 ≤ i && i ≤ 18

/-- A write merged into word `i` of the header: immediate words pass to the active copy at once and set no mark; any
other word sets the mark when a byte is enabled (R7, R8, R176). -/
def mergeHeader (i : Fin 32) (be : Enables) (data : Word) (s : State) : State :=
  let s1 := { s with
    plan.pendingCopy.header := s.plan.pendingCopy.header.set i (mergeWord be data s.plan.pendingCopy.header[i]) }
  if immediateWord i.val then
    { s1 with plan.activeCopy.header :=
        s.plan.activeCopy.header.set i (mergeWord be data s.plan.activeCopy.header[i]) }
  else if be = 0#4 then s1 else { s1 with plan.headerDirty := true }

/-- A write merged into word `i` of the zone table. -/
def mergeZones (i : Fin 128) (be : Enables) (data : Word) (s : State) : State :=
  { s with
    plan.pendingCopy.zones := s.plan.pendingCopy.zones.set i (mergeWord be data s.plan.pendingCopy.zones[i])
    plan.zonesDirty := true }

/-- A write merged into word `i` of slot `k`'s record. -/
def mergeRecord (k : SlotIx) (i : Fin 16) (be : Enables) (data : Word) (s : State) : State :=
  { s with
    plan.pendingCopy.records := modifySlot s.plan.pendingCopy.records k fun r => r.set i (mergeWord be data r[i])
    plan.recordDirty := s.plan.recordDirty.set k true }

/-- A write to the plan areas merged into the pending copy, by the offset of its word in the page (R1). -/
def mergePlan (offset : Nat) (be : Enables) (data : Word) (s : State) : State :=
  let w := offset / 4
  if h : w < 32 then mergeHeader ⟨w, h⟩ be data s
  else if h : w - 32 < 128 then mergeZones ⟨w - 32, h⟩ be data s
  else if h : (w - 160) / 16 < 24 then
    mergeRecord ⟨(w - 160) / 16, h⟩ ⟨(w - 160) % 16, Nat.mod_lt _ (by decide)⟩ be data s
  else s

/-! ### The plan check (R16) -/

/-- Start points rise strictly. -/
def strictlyRising : List Nat → Bool
  | a :: b :: rest => a < b && strictlyRising (b :: rest)
  | _ => true

/-- The field conditions of the plan check. -/
def fieldsPass (s : State) (r : Record16) : Bool :=
  let starts := (zoneSequence s.plan.activeCopy.zones r).map Zone.start
  (recPort r).toNat ≤ 47 &&
  recSource r != 3 && headerDutyLimit (activeHeader s) (recSource r) != 0 &&
  recZoneCount r != 0 && recFirstZone r + recZoneCount r ≤ 64 &&
  recCompareStart r ≤ recCompareEnd r &&
  starts.head? = some (recCompareStart r) &&
  strictlyRising starts &&
  starts.all fun x => x ≤ recCompareEnd r

/-- A buffer of N words lies wholly in trace memory below the control page. -/
def bufferFits (base n : Nat) : Bool := base + 4 * n ≤ controlPage

/-- The buffer conditions of the plan check. -/
def buffersPass (s : State) (k : SlotIx) (r : Record16) : Bool :=
  bufferFits (recAccBase r) (recPoints r) && bufferFits (recBaseBase r) (recPoints r) &&
  !rangesMeet (recAccBase r) (recPoints r) (headerRingBase (activeHeader s)) (4 * ringCapacity s) &&
  (List.finRange 24).all fun j =>
    let o := activeRecord s j
    j = k || !recEnable o ||
      (!rangesMeet (recAccBase r) (recPoints r) (recAccBase o) (recPoints o) &&
       !rangesMeet (recAccBase r) (recPoints r) (recBaseBase o) (recPoints o))

/-- The plan check of slot `k`, on the active copies (R16). -/
def planCheck (s : State) (k : SlotIx) : Bool :=
  fieldsPass s (activeRecord s k) && buffersPass s k (activeRecord s k)

/-! ### The partner judgement (R17) -/

/-- The partner of slot `k` is honoured. -/
def partnerHonoured (s : State) (k p : SlotIx) : Bool :=
  let a := activeRecord s k
  let b := activeRecord s p
  p != k && recPartner b = some k && recPort a = recPort b && recSource a != recSource b

/-- The judgement of slot `k`'s partner field (R17, R135). -/
def judgePartner (s : State) (k : SlotIx) : Judgement :=
  match recPartner (activeRecord s k) with
  | some p => if partnerHonoured s k p then .names p else .unpaired
  | none => .unpaired

/-- The partner-ignored flag that goes with it (R17). -/
def partnerIgnoredNow (s : State) (k : SlotIx) : Bool :=
  match recPartner (activeRecord s k) with
  | some p => !partnerHonoured s k p
  | none => false

/-- The partner-ignored flag takes the result of the judgement (R17). -/
def setPartnerIgnored (k : SlotIx) (s : State) : State :=
  { s with plan.partnerIgnored := s.plan.partnerIgnored.set k (partnerIgnoredNow s k) }

/-! ### The outcome record (R20) -/

/-- The outcome record replaced and handed to the Findings Unit: its status word is marked dirty (R20, R157). -/
def recordOutcome (code tag : BitVec 8) (o : CmdOutcome) (s : State) : State :=
  markDirty 3 { s with plan.lastCommand := ⟨code, tag, o⟩ }

end Sys2Proof.Machine
end

