-- ==== Sys2Proof/Machine/Trace.lean ====
section
/-! DEFINITION. The Trace Engine: conditions and the capture record (R100 to R105), point classes, runs and results
(R110 to R118), and the background operations (R119 to R130). -/

namespace Sys2Proof.Machine

/-! ### Point classes and the comparison record (R111 to R117) -/

/-- The light sum of a single point of an operation (R95, with b = 1). -/
def pointLight (b : Background) (acc : Word) : Int := lightSum acc.toNat 1 (recDark b.record) b.shots

/-- The level of a single point with light (R97). -/
def pointLevel (b : Background) (acc : Word) : Int := level (pointLight b acc).toNat 1 b.shots

/-- The point is dark or below the floor level (R111 tests 2 and 3). -/
def belowFloor (b : Background) (acc : Word) : Bool :=
  pointLight b acc ≤ 0 || pointLevel b acc < recFloor b.record

/-- The deviation of a point with light (R99). -/
def pointDeviation (b : Background) (acc base : Word) : Int := pointLevel b acc - base.toInt

/-- The class of a point (R111). -/
def classify (b : Background) (i : Nat) (acc base : Word) : PointClass :=
  if base.toInt = absentCode then .skip
  else if belowFloor b acc then (if base.toInt < recFloor b.record then .within else .floor)
  else if pointDeviation b acc base < -((marginsAt b.zones i).1 : Int) then .low
  else if pointDeviation b acc base > ((marginsAt b.zones i).2 : Int) then .high
  else .within

/-- The classes whose unconfirmed runs are glitches, and that depart (R112). -/
def departing : PointClass → Bool
  | .low => true
  | .high => true
  | .floor => true
  | _ => false

/-- The current run ends and is judged (R112, R113 step 1). -/
def endRun (c : Nat) (x : Comparison) : Comparison :=
  match x.run with
  | some r => { x with run := none, glitches := if departing r.cls && r.length < c then x.glitches + 1 else x.glitches }
  | none => x

/-- The mean of d over a run's first c points, truncated toward zero and clamped (R115, R117). -/
def runMagnitude (c : Nat) (r : Run) : Int := clampMagnitude (r.sum.tdiv c)

/-- The BREAK found at a confirmed FLOOR run (R116). -/
def breakAt (floorLevel : Int) (r : Run) (preceded : Bool) : Decided :=
  ⟨.brk, r.start, clampMagnitude (floorLevel - r.base), r.before = some .high, preceded⟩

/-- What a confirmed run does in each search state (R114). -/
def confirmRun (c : Nat) (floorLevel : Int) (r : Run) (x : Comparison) : Comparison :=
  match x.search with
  | .seeking =>
    match r.cls with
    | .low => { x with leading := some r, search := .afterLow }
    | .high =>
      { x with leading := some r, search := .decided
               decided := some ⟨.reflection, r.start, runMagnitude c r, false, false⟩ }
    | .floor => { x with leading := some r, search := .decided, decided := some (breakAt floorLevel r false) }
    | _ => x
  | .afterLow =>
    match r.cls, x.leading with
    | .floor, _ => { x with search := .decided, decided := some (breakAt floorLevel r true) }
    | .within, some lead =>
      { x with search := .decided, decided := some ⟨.anomaly, lead.start, runMagnitude c lead, false, false⟩ }
    | _, _ => x
  | .decided => x

/-- LOW and HIGH runs keep a first-c sum (R113). -/
def keepsSum : PointClass → Bool
  | .low => true
  | .high => true
  | _ => false

/-- The current run after a point of class `cls` (R113 step 2). -/
def growRun (c : Nat) (x : Comparison) (i : Nat) (cls : PointClass) (d base : Int) : Run :=
  match x.run with
  | none => ⟨cls, i, 1, if keepsSum cls then d else 0, base, x.prev⟩
  | some r =>
    { r with length := r.length + 1, sum := if keepsSum cls && r.length < c then r.sum + d else r.sum }

/-- The comparison record advanced by one classed point (R113 steps 1 to 4). -/
def advancePoint (c : Nat) (floorLevel : Int) (x : Comparison) (i : Nat) (cls : PointClass) (d base : Int) :
    Comparison :=
  let x1 :=
    match x.run with
    | some r => if cls = .skip ∨ r.cls ≠ cls then endRun c x else x
    | none => x
  let x2 :=
    if cls = .skip then x1
    else
      let r := growRun c x1 i cls d base
      let x' := { x1 with run := some r }
      if r.length = c then confirmRun c floorLevel r x' else x'
  { x2 with prev := some cls }

/-- The record as it is set up (R113). -/
def Comparison.start : Comparison := ⟨none, none, .seeking, none, none, 0⟩

/-- The kind, location, magnitude and flags at the end of the compare range (R114, R117). -/
def decidedAtEnd (c : Nat) (x : Comparison) : Decided :=
  match x.search with
  | .seeking => ⟨.clear, 0, 0, false, false⟩
  | .afterLow =>
    match x.leading with
    | some lead => ⟨.lossCandidate, lead.start, runMagnitude c lead, false, false⟩
    | none => ⟨.clear, 0, 0, false, false⟩
  | .decided => x.decided.getD ⟨.clear, 0, 0, false, false⟩

/-! ### Conditions (R100 to R104) -/

/-- A condition raised for a slot: its summary mark is set and it joins the slot's conditions seen (R100). -/
def raiseCondition (c : Condition) (k : SlotIx) (s : State) : State :=
  { s with
    trace.summary := s.trace.summary.insert c
    trace.seen := modifySlot s.trace.seen k (CondSet.insert c) }

/-- The capture record filled for a stop, or the overrun flag set (R104). -/
def captureStop (b : Background) (point : Nat) (c : Condition) (s : State) : State :=
  match s.trace.capture with
  | some _ => { s with trace.captureOverrun := true }
  | none =>
    let cap : Capture := ⟨b.op, b.slot, s.seq.sweepNumber, point, c⟩
    queueCapture (some cap) true { s with trace.capture := some cap }

/-! ### Ends of background operations -/

/-- The background slot takes an operation or becomes FREE, which is reported (R119). -/
def setBg (b : Option Background) (s : State) : State := report { s with trace.bg := b }

/-- The result of an operation (R118). -/
def resultOf (s : State) (b : Background) (d : Decided) (reason : FaultReason) (glitches : Nat) : Result where
  kind := d.kind
  location := d.location
  magnitude := d.magnitude
  reflective := d.reflective
  preceded := d.preceded
  masked := b.masked
  reason := reason
  sweep := s.seq.sweepNumber
  injected := b.op = .compareCommand
  glitches := glitches

/-- A COMPARE-RUN reports its result: the slot passes from COMPARING to POSTING (R33, R118). -/
def reportResult (k : SlotIx) (r : Result) (s : State) : State :=
  match s.seq.comp with
  | some l => if l.slot = k ∧ l.phase = .comparing then { s with seq.comp := some ⟨k, .posting r⟩ } else s
  | none => s

/-- A COMPARE-RUN or COMPARE-COMMAND that hands on a result ends (R118, R120, R128): the glitch count is reported; a
COMPARE-RUN's slot enters POSTING; a COMPARE-COMMAND's guard is lifted and its result posted unpaired (R142) before the
background slot becomes FREE and the deferred regions apply (R10). -/
def endCompare (b : Background) (r : Result) (s : State) : State :=
  let s1 := { s with trace.glitchCount := s.trace.glitchCount.set b.slot r.glitches }
  if b.op = .compareCommand then
    applyOutside (setBg none (postVerdict b.slot (verdictOf r) (liftGuard .compareCommand b.slot s1)))
  else setBg none (reportResult b.slot r s1)

/-- An ADOPT ends without completing (R126). -/
def endAdopt (b : Background) (s : State) : State := applyOutside (setBg none (liftGuard .adopt b.slot s))

/-- An ADOPT completes (R125). -/
def completeAdopt (b : Background) (s : State) : State :=
  applyOutside (setBg none (liftGuard .adopt b.slot (setBased b.slot true s)))

/-- An operation stopped by a condition under STOPPING at a point (R103, R104). -/
def stopOperation (b : Background) (point : Nat) (c : Condition) (s : State) : State :=
  let s1 := captureStop b point c s
  if b.op = .adopt then endAdopt b s1
  else endCompare b (resultOf s1 b ⟨.faulted, point, 0, false, false⟩ .condition b.cmp.glitches) s1

/-- A condition met by an operation: raised once, then its disposition applies (R100, R102, R103). The operation that
goes on is answered; `none` says that it stopped. -/
def meetCondition (c : Condition) (b : Background) (point : Nat) (s : State) : State × Option Background :=
  if b.raised.has c then (s, some b)
  else
    let s1 := raiseCondition c b.slot s
    let b1 := { b with raised := b.raised.insert c }
    if b.stopping.has c then (stopOperation b1 point c s1, none)
    else (s1, some { b1 with masked := b1.masked.insert c })

/-- A condition tested at a point or a start: met, or the operation goes on as it is (R100). -/
def testCondition (holds : Bool) (c : Condition) (b : Background) (point : Nat) (s : State) :
    State × Option Background :=
  if holds then meetCondition c b point s else (s, some b)

/-- What follows the test of a condition: nothing where the operation has stopped, the rest of the step where it goes
on (R102, R103). -/
def onGoing (p : State × Option Background) (rest : Background → State → State) : State :=
  match p.2 with
  | some b => rest b p.1
  | none => p.1

/-! ### Starts of background operations -/

/-- An operation as it begins: what it reads from the active copies (R94, R102, R120, R123, R128). -/
def newBackground (op : BgOp) (k : SlotIx) (shots : Nat) (s : State) : Background where
  op := op
  slot := k
  shots := shots
  record := activeRecord s k
  zones := zoneSequence s.plan.activeCopy.zones (activeRecord s k)
  stopping := headerStopping (activeHeader s)
  raised := CondSet.empty
  masked := CondSet.empty
  point := if op = .adopt then 0 else recCompareStart (activeRecord s k)
  acc := none
  cmp := Comparison.start

/-- A comparison completes at the end of its range (R114, R118). -/
def finishCompare (b : Background) (s : State) : State :=
  let c := recConfirm b.record
  let x := endRun c b.cmp
  endCompare b (resultOf s b (decidedAtEnd c x) .none x.glitches) s

/-- A comparison begins (R120, R128): the background slot takes it, CLIPPED is tested, and an empty compare range
completes at once. -/
def startCompare (op : BgOp) (k : SlotIx) (shots : Nat) (clipped : Bool) (s : State) : State :=
  let b := newBackground op k shots s
  onGoing (testCondition clipped .clipped b 0 (setBg (some b) s)) fun b2 s2 =>
    if recCompareStart b2.record > recCompareEnd b2.record then finishCompare b2 s2
    else { s2 with trace.bg := some b2 }

/-- A COMPARE-RUN begins on a slot that enters COMPARING (R120). -/
def startCompareRun (k : SlotIx) (s : State) : State :=
  startCompare .compareRun k s.intake.accepted[k] s.trace.clipNote[k] s

/-- A COMPARE-COMMAND begins on a slot, with its guard (R127, R128, R92). -/
def startCompareCommand (k : SlotIx) (s : State) : State :=
  let r := activeRecord s k
  startCompare .compareCommand k (recInjected r) s.accum.clippedContent[k]
    (placeGuard ⟨.compareCommand, k, recAccBase r, recPoints r⟩ s)

/-- The based flags cleared as an ADOPT starts: slot `k`'s, and those of slots whose active baseline buffer shares a
word with slot `k`'s (R123 step 4, R133). -/
def clearSharedBased (k : SlotIx) (s : State) : State :=
  let r := activeRecord s k
  { s with verdict.table := mapSlots s.verdict.table fun j e =>
      { e with based := e.based && !(j = k || rangesMeet (recBaseBase r) (recPoints r)
          (recBaseBase (activeRecord s j)) (recPoints (activeRecord s j))) } }

/-- An accepted ADOPT starts (R123). -/
def startAdopt (k : SlotIx) (s : State) : State :=
  let b := newBackground .adopt k s.intake.accepted[k] s
  onGoing (testCondition s.accum.clippedContent[k] .clipped b 0 (setBg (some b) s)) fun b2 s2 =>
    placeGuard ⟨.adopt, k, recBaseBase b2.record, recPoints b2.record⟩
      (clearSharedBased k { s2 with trace.bg := some b2 })

/-! ### Points of a background operation (R119, R124) -/

/-- The byte address of the accumulator word of the point. -/
def accAddress (b : Background) : Nat := recAccBase b.record + 4 * b.point

/-- The byte address of the baseline word of the point. -/
def baseAddress (b : Background) : Nat := recBaseBase b.record + 4 * b.point

/-- The next word an operation asks the arbiter for. -/
inductive TraceWord where
  | readAcc
  | readBase
  | writeBase
  /-- The point can be done without a word: what is left of it lies beyond trace memory (R128). -/
  | nothing
  deriving DecidableEq, Repr

/-- The next word of the point in progress: accumulator, then baseline, but for words beyond trace memory (R119,
R128). -/
def traceNeed (b : Background) : TraceWord :=
  if b.acc.isNone && accAddress b < memoryEnd then .readAcc
  else if baseAddress b < memoryEnd then (if b.op = .adopt then .writeBase else .readBase)
  else .nothing

/-- The accumulator word of the point: as fetched, or 0 beyond trace memory (R128). -/
def pointAcc (b : Background) : Word := b.acc.getD 0#32

/-- The next point of a comparison, or its end (R120). -/
def nextComparePoint (b : Background) (s : State) : State :=
  if b.point < recCompareEnd b.record then { s with trace.bg := some { b with point := b.point + 1, acc := none } }
  else finishCompare b s

/-- A point of a comparison with its words: the tests of SATURATED and GAP, then its class (R100, R111, R113). -/
def comparePoint (b : Background) (acc base : Word) (s : State) : State :=
  let i := b.point
  onGoing (testCondition (saturatedPoint acc (recDark b.record) b.shots) .saturated b i s) fun b1 s1 =>
    onGoing (testCondition (base.toInt = absentCode) .gap b1 i s1) fun b2 s2 =>
      let x := advancePoint (recConfirm b2.record) (recFloor b2.record) b2.cmp i (classify b2 i acc base)
        (pointDeviation b2 acc base) base.toInt
      nextComparePoint { b2 with cmp := x } s2

/-- A point lies in the compare range of an operation (R94). -/
def inCompareRange (b : Background) : Bool :=
  recCompareStart b.record ≤ b.point && b.point ≤ recCompareEnd b.record

/-- An ADOPT's accumulator word is fetched: SATURATED is tested in the compare range before the write (R100, R124). -/
def adoptRead (b : Background) (acc : Word) (s : State) : State :=
  onGoing (testCondition (inCompareRange b && saturatedPoint acc (recDark b.record) b.shots) .saturated b b.point s)
    fun b1 s1 => { s1 with trace.bg := some { b1 with acc := some acc } }

/-- The word an ADOPT writes for a point (R124). -/
def adoptWord (b : Background) (acc : Word) : Word :=
  BitVec.ofInt 32 (if pointLight b acc ≤ 0 then noLightCode else pointLevel b acc)

/-- The word at `a` is the accumulator word that the point in progress has read and not yet written (R126). -/
def pointHolds (b : Background) (a : Nat) : Bool := b.acc.isSome && accAddress b = a

/-- An ADOPT on a slot whose ready flag a write of the word at `a` has just cleared ends, and the word it has not been
granted is withdrawn (R126, R174). A write of the very word its point has read comes after the read: the point is still
written from the old word, and the ADOPT ends then (R126; log entry 41). -/
def endAdoptIfCleared (a : Nat) (before after : State) : State :=
  match after.trace.bg with
  | some b =>
    if b.op = .adopt ∧ before.accum.ready[b.slot] = true ∧ after.accum.ready[b.slot] = false ∧ pointHolds b a = false then
      endAdopt b after
    else after
  | none => after

/-- A write of the part's own engines into a word of memory, and its snoop (R172). -/
def ownWrite (a : Nat) (w : Word) (ownAcc ownBase : Option SlotIx) (s : State) : State :=
  let s1 := { s with mem := writeWord s.mem a 0xF#4 w }
  endAdoptIfCleared a s (if a < memoryEnd then snoop a ownAcc ownBase s1 else s1)

/-- The next point of an ADOPT, or its completion (R124, R125). -/
def nextAdoptPoint (b : Background) (s : State) : State :=
  if b.point + 1 < recPoints b.record then { s with trace.bg := some { b with point := b.point + 1, acc := none } }
  else completeAdopt b s

/-- An ADOPT's baseline word is written. The operation goes on while its slot is ready, and ends where this write, or a
write of the accumulator word since the point read it, has cleared the ready flag (R124, R126; log entry 41). -/
def adoptWrite (b : Background) (s : State) : State :=
  let s1 := ownWrite (baseAddress b) (adoptWord b (pointAcc b)) none (some b.slot) s
  if s1.trace.bg.isNone then s1 else if s1.accum.ready[b.slot] then nextAdoptPoint b s1 else endAdopt b s1

/-- A word of the point in progress is granted (R119). -/
def traceWordGranted (b : Background) (s : State) : State :=
  match traceNeed b with
  | .readAcc =>
    let w := readWord s.mem (accAddress b)
    if b.op = .adopt then adoptRead b w s
    else if baseAddress b < memoryEnd then { s with trace.bg := some { b with acc := some w } }
    else comparePoint b w (BitVec.ofInt 32 absentCode) s
  | .readBase => comparePoint b (pointAcc b) (readWord s.mem (baseAddress b)) s
  | .writeBase => adoptWrite b s
  | .nothing => s

/-- A point that needs no word of memory is done at once (R128). -/
def wordlessPoint (b : Background) (s : State) : State :=
  if b.op = .adopt then nextAdoptPoint b s else comparePoint b (pointAcc b) (BitVec.ofInt 32 absentCode) s

/-! ### Operations ended without a result (R120, R126, R129) -/

/-- A COMPARE-RUN on an abandoned slot ends without a result (R39, R120). -/
def endCompareRun (k : SlotIx) (s : State) : State :=
  match s.trace.bg with
  | some b => if b.op = .compareRun ∧ b.slot = k then setBg none s else s
  | none => s

/-- DISABLE and REINIT end the operation in flight without a result, and lift its guard (R126, R129, R130). The
deferral ends with it; the command applies the dirty regions. -/
def endBackground (s : State) : State :=
  match s.trace.bg with
  | some b => setBg none (liftGuard .compareCommand b.slot (liftGuard .adopt b.slot s))
  | none => s

end Sys2Proof.Machine
end

