-- ==== Sys2Proof/Machine/View.lean ====
section
/-! DEFINITION. View reads (R158 to R163) and the view locks they share with adds (R86, R89). -/

namespace Sys2Proof.Machine

/-! ### Fields and words of a read (R158, R159) -/

/-- The output count (R158). -/
def outputCount (points start step bin : Nat) : Nat :=
  if start + bin ≤ points then (points - start - bin) / step + 1 else 0

/-- The view fields and the view slot's record, as a read takes them up (R158). -/
def viewFields (s : State) : ViewFields :=
  let h := activeHeader s
  let k := headerViewSlot h
  let r := activeRecord s k
  { slot := k
    format := headerViewFormat h
    towardZero := headerTowardZero h
    start := headerViewStart h
    step := headerViewStep h
    bin := headerViewBin h
    count := outputCount (recPoints r) (headerViewStart h) (headerViewStep h) (headerViewBin h)
    accBase := recAccBase r
    baseBase := recBaseBase r
    dark := recDark r }

/-- The view word a read addresses (R159). -/
def viewWord (a : Access) : Nat := a.addr.toNat % 0x10000 / 4

/-- The output points of a word (R159). -/
def outputPoints (f : ViewFields) (j : Nat) : List Nat :=
  match f.format with
  | .packed => [2 * j, 2 * j + 1]
  | _ => [j]

/-- The output points of a word that lie below the output count. -/
def pointsBelow (f : ViewFields) (j : Nat) : List Nat := (outputPoints f j).filter fun p => p < f.count

/-- The first accumulator point of an output point (R158). -/
def firstPoint (f : ViewFields) (p : Nat) : Nat := f.start + p * f.step

/-- The words of a read in the order they are fetched, each with what it is taken as beyond trace memory (R159,
R162 step 5). -/
def fetchPlan (f : ViewFields) (j : Nat) : List (Nat × Word) :=
  match f.format with
  | .deviation =>
    (pointsBelow f j).flatMap fun p =>
      [(f.accBase + 4 * firstPoint f p, 0#32), (f.baseBase + 4 * firstPoint f p, BitVec.ofInt 32 absentCode)]
  | _ =>
    (pointsBelow f j).flatMap fun p =>
      (List.range f.bin).map fun i => (f.accBase + 4 * (firstPoint f p + i), 0#32)

/-- How many of the words are accumulator words (R162 step 5). -/
def accWords (f : ViewFields) (j : Nat) : Nat :=
  match f.format with
  | .deviation => (pointsBelow f j).length
  | _ => (fetchPlan f j).length

/-- The words that follow and lie beyond trace memory taken without a fetch (R159). -/
def fillBeyond : List (Nat × Word) → List Word → List Word
  | (a, dflt) :: rest, ws => if a < memoryEnd then ws else fillBeyond rest (ws ++ [dflt])
  | [], ws => ws

/-! ### Forming the word (R160, R161) -/

/-- The sum of accumulator words. -/
def sumWords (ws : List Word) : Nat := (ws.map BitVec.toNat).sum

/-- A LINEAR or LEVEL output point, from its accumulator words. -/
def plainValue (f : ViewFields) (p shots : Nat) (ws : List Word) : Int × Bool :=
  let d := lightSum (sumWords ws) f.bin f.dark shots
  match f.format with
  | .linear => if p < f.count ∧ shots ≠ 0 then linearValue d f.bin shots else (0, false)
  | _ => if p < f.count ∧ shots ≠ 0 ∧ 0 < d then (level d.toNat f.bin shots, false) else (noLightCode, false)

/-- One half of a PACKED word (R107, R160). -/
def packedHalf (f : ViewFields) (p shots : Nat) (ws : List Word) : Int × Bool :=
  let d := lightSum (sumWords ws) f.bin f.dark shots
  if p < f.count ∧ shots ≠ 0 ∧ 0 < d then packedValue (level d.toNat f.bin shots) f.towardZero else (-32768, false)

/-- A DEVIATION output point, from its accumulator word and its baseline word (R161). -/
def deviationValue (f : ViewFields) (p shots : Nat) (acc base : Word) : Int × Bool :=
  let d := lightSum acc.toNat 1 f.dark shots
  if ¬ p < f.count then (absentCode, false)
  else if shots = 0 then (noLightCode, false)
  else if base.toInt = absentCode then (absentCode, false)
  else if d ≤ 0 then (noLightCode, false)
  else
    let dev := level d.toNat 1 shots - base.toInt
    (clampMagnitude dev, clampMagnitude dev != dev)

/-- The word a read is answered with, and whether a conversion clamped (R160, R161, R108). -/
def formWord (f : ViewFields) (j shots : Nat) (ws : List Word) : Word × Bool :=
  match f.format with
  | .packed =>
    let lo := packedHalf f (2 * j) shots (ws.take f.bin)
    let hi := packedHalf f (2 * j + 1) shots (ws.drop f.bin)
    (BitVec.ofInt 16 hi.1 ++ BitVec.ofInt 16 lo.1, lo.2 || hi.2)
  | .deviation =>
    let v := deviationValue f j shots (ws.getD 0 0#32) (ws.getD 1 0#32)
    (BitVec.ofInt 32 v.1, v.2)
  | _ =>
    let v := plainValue f j shots ws
    (BitVec.ofInt 32 v.1, v.2)

/-! ### Adds and view locks (R86, R89) -/

/-- The view lock of a slot set. -/
def setLock (k : SlotIx) (l : LockState) (s : State) : State := { s with accum.lock := s.accum.lock.set k l }

/-- The test for the next add: the oldest queued record begins its add when none is in progress and the slot's view
lock is FREE (R86). -/
def testAdd (s : State) : State :=
  match s.accum.queue with
  | e :: rest =>
    if s.accum.add = none ∧ s.accum.lock[e.slot] = .free then
      setLock e.slot .adding { s with
        accum.queue := rest
        accum.add :=
          some ⟨e.slot, e.buffer, if s.intake.accepted[e.slot] = 0 then .write else .add, e.clipped, 0, none⟩ }
    else s
  | [] => s

/-- A view read releases a slot's lock, and the next add is tested (R86, R89). -/
def releaseByView (k : SlotIx) (s : State) : State := testAdd (setLock k .free s)

/-- A held view read is answered: SQUEEZED first, then the word (R162 step 6, R108). -/
def answerView (w : Word × Bool) (s : State) : State :=
  { s with
    trace.squeezed := s.trace.squeezed || w.2
    trace.view := none
    path.readData := w.1 }

/-- A read goes on with the words it has: words beyond trace memory are taken at once, the lock is released with the
last accumulator word, and the read is answered when it has them all (R159, R162 steps 5 and 6). Where the last
accumulator words lie beyond trace memory the lock is released with the last one granted, and where they all do, in the
step that takes it: DEDUCED, R162 speaks of a grant alone (log entry 45). `had` is how many words it had before. -/
def advanceView (a : Access) (f : ViewFields) (shots had : Nat) (words : List Word) (s : State) : State :=
  let j := viewWord a
  let plan := fetchPlan f j
  let ws := fillBeyond (plan.drop words.length) words
  let s1 := { s with trace.view := some ⟨a, .fetching f shots ws⟩ }
  let s2 := if had < accWords f j ∧ accWords f j ≤ ws.length then releaseByView f.slot s1 else s1
  if plan.length ≤ ws.length then answerView (formWord f j shots ws) s2 else s2

/-- A read that finds its lock FREE takes it, reads S, and fetches or is answered (R162 steps 3 to 5). -/
def lockView (a : Access) (f : ViewFields) (s : State) : State :=
  let s1 := setLock f.slot .viewing s
  let shots := s.intake.accepted[f.slot]
  if shots = 0 then answerView (formWord f (viewWord a) 0 []) (releaseByView f.slot s1)
  else advanceView a f shots 0 [] s1

/-- A read is taken up (R162 steps 2 and 3). -/
def takeUpView (a : Access) (s : State) : State :=
  if s.seq.state = .off then answerView (0#32, false) s
  else
    let f := viewFields s
    if pointsBelow f (viewWord a) = [] then answerView (formWord f (viewWord a) 0 []) s
    else if s.accum.lock[f.slot] = .free then lockView a f s
    else { s with trace.view := some ⟨a, .waitLock f⟩ }

/-- The queue's oldest record is of slot `k` and could begin its add. -/
def addWaits (k : SlotIx) (s : State) : Bool :=
  match s.accum.queue with
  | e :: _ => e.slot = k && s.accum.add.isNone
  | [] => false

/-- An add releases a slot's lock: the next add of the slot and a held view read of it may both want it, and either may
take it first, a free value (R88 step 5, R89; log entry 8). -/
def releaseByAdd (k : SlotIx) (s : State) : State :=
  let s1 := setLock k .free s
  match s1.trace.view with
  | some ⟨a, .waitLock f⟩ =>
    if f.slot = k then
      if addWaits k s1 then
        let s2 := { s1 with freeIndex := s1.freeIndex + 1 }
        if Config.viewReadFirst s1.freeIndex then lockView a f s2 else testAdd s2
      else lockView a f s1
    else testAdd s1
  | _ => testAdd s1

/-! ### Background operations around a view read (R163) -/

/-- The operation that goes on: the background operation, where no view read is in service or the read in service
waits for the operation's point. A point is in progress from the request for its first word (R119), which stands until
its grant, so a read that arrives meanwhile waits for the point (R163, R174; log entry 18). -/
def runningOperation (s : State) : Option Background :=
  match s.trace.view with
  | some v => s.trace.bg.filter fun b => v.stage = .waitPoint b.point
  | none => s.trace.bg

/-- What the Trace Engine does without a grant: points that need no word of memory are done, and a read that waited for
a point that is done is taken up (R128, R163; log entry 40). Each round does a point or takes up a read; a compare range
has at most 16,384 points (log entry 26). -/
def pumpTrace : Nat → State → State
  | 0, s => s
  | n + 1, s =>
    match runningOperation s, s.trace.view with
    | some b, _ => if traceNeed b = .nothing then pumpTrace n (wordlessPoint b s) else s
    | none, some ⟨a, .waitPoint _⟩ => pumpTrace n (takeUpView a s)
    | none, _ => s

/-- The Trace Engine run as far as it goes without a grant. -/
def runTrace (s : State) : State := pumpTrace 16400 s

/-- A view read arrives: it waits for the point in progress of a background operation, or is taken up (R162 steps 1
and 2). -/
def arriveView (a : Access) (s : State) : State :=
  match s.trace.bg with
  | some b => runTrace { s with trace.view := some ⟨a, .waitPoint b.point⟩ }
  | none => takeUpView a s

/-- The word a fetching read asks for is granted (R162 step 5). -/
def viewWordGranted (s : State) : State :=
  match s.trace.view with
  | some ⟨a, .fetching f shots words⟩ =>
    match (fetchPlan f (viewWord a))[words.length]? with
    | some (addr, _) => advanceView a f shots words.length (words ++ [readWord s.mem addr]) s
    | none => s
  | _ => s

end Sys2Proof.Machine
end

