-- ==== Sys2Proof/Machine/Accumulation.lean ====
section
/-! DEFINITION. The accumulation of accepted records (R84 to R93) and the runs of Shot Intake and the Accumulation
Engine: their beginning (R79, R91, R92), their completion (R78, R88, R90) and their end (R80, R93). -/

namespace Sys2Proof.Machine

/-! ### The acquisition lane, as Shot Intake and the Accumulation Engine see it -/

/-- The phases in which a slot's shots and records count: FIRING and RESTING (R69). -/
def AcqPhase.shooting : AcqPhase → Bool
  | .firing => true
  | .resting => true
  | _ => false

/-- The slot in the acquisition lane that is in FIRING or RESTING, with the sequencer in SWEEPING (R69). -/
def shootingSlot (s : State) : Option SlotIx :=
  match s.seq.acq with
  | some l => if s.seq.state = .sweeping ∧ l.phase.shooting = true then some l.slot else none
  | none => none

/-- The slot in the acquisition lane reaches AWAITING COMPARE, and its shot spacing is set elapsed (R31, R58). -/
def awaitCompare (h : Held) (s : State) : State :=
  match s.seq.acq with
  | some l => spacingElapsed { s with seq.acq := some { l with phase := .awaiting h } }
  | none => s

/-! ### A run begins (R79, R91, R92, R100, R101) -/

/-- What Shot Intake, the Trace Engine and the Accumulation Engine set as slot `k` enters SETTLING. -/
def beginRun (k : SlotIx) (s : State) : State :=
  let r := activeRecord s k
  placeGuard ⟨.run, k, recAccBase r, recPoints r⟩ { s with
    intake.accepted := s.intake.accepted.set k 0
    intake.rejected := s.intake.rejected.set k 0
    intake.lost := s.intake.lost.set k 0
    intake.lastReject := s.intake.lastReject.set k .none
    intake.failures := 0
    trace.seen := s.trace.seen.set k CondSet.empty
    trace.clipNote := s.trace.clipNote.set k false
    accum.ready := s.accum.ready.set k false
    accum.clippedContent := s.accum.clippedContent.set k false }

/-! ### A run ends (R80, R93) -/

/-- Shot Intake's part: the list emptied, both buffers FREE, AWAITING HEADER. -/
def clearIntake (s : State) : State :=
  { s with
    intake.outstanding := []
    intake.buffer0 := .free
    intake.buffer1 := .free
    intake.framing := none }

/-- The Accumulation Engine's part: the queue emptied, an add in progress stopped and its slot's view lock released to
a held view read. -/
def stopAdds (s : State) : State :=
  match s.accum.add with
  | some a => releaseByAdd a.slot { s with accum.queue := [], accum.add := none }
  | none => { s with accum.queue := [] }

/-- The run of the acquisition slot ends in both blocks (R80, R93); its guard is left to the caller. -/
def endRunOf (s : State) : State := stopAdds (clearIntake s)

/-! ### A point of an add (R87) -/

/-- The samples of the record a staging buffer holds. -/
def bufferSamples (s : State) (i : BufIx) : List Word :=
  match bufferAt s i with
  | .filling r => r.samples
  | .queued r => r.samples
  | _ => []

/-- The byte address of the word of the add's point. -/
def addAddress (s : State) (a : AddState) : Nat := recAccBase (activeRecord s a.slot) + 4 * a.point

/-- The word an add writes: the sample in WRITE mode, the saturated sum in ADD mode. -/
def addWord (s : State) (a : AddState) : Word :=
  let sample := sampleAt (bufferSamples s a.buffer) a.point
  match a.read with
  | some w => saturatingAdd w sample
  | none => BitVec.ofNat 32 sample

/-- The next access of an add is the read of its point. -/
def addReads (a : AddState) : Bool := a.mode = .add && a.read.isNone

/-! ### Completion (R78, R88, R90) -/

/-- Steps 1 and 2 and the end of the add: the buffer freed, the accepted count raised, the clipped-content mark. -/
def countAdd (a : AddState) (s : State) : State :=
  setBuffer a.buffer .free { s with
    accum.add := none
    intake.accepted := modifySlot s.intake.accepted a.slot (· + 1)
    accum.clippedContent := modifySlot s.accum.clippedContent a.slot (· || a.clipped) }

/-- Step 3: the accepted count has reached the shot target, and the slot passes to AWAITING COMPARE holding its
accumulation, its ready flag set; otherwise the firing conditions are tested again. -/
def targetTest (k : SlotIx) (s : State) : State :=
  if s.intake.accepted[k] = recTarget (activeRecord s k) then
    let s1 := setReady k true s
    if shootingSlot s1 = some k then awaitCompare .accumulation s1 else s1
  else testFire s

/-- An add completes: its lock is released last, to the next add or a held view read (R88). -/
def completeAdd (a : AddState) (s : State) : State := releaseByAdd a.slot (targetTest a.slot (countAdd a s))

/-- The next point of an add, or its completion. -/
def nextAddPoint (a : AddState) (s : State) : State :=
  if a.point + 1 < recPoints (activeRecord s a.slot) then
    { s with accum.add := some { a with point := a.point + 1, read := none } }
  else completeAdd a s

/-- A word of the add in progress is granted (R87). -/
def addWordGranted (a : AddState) (s : State) : State :=
  if addReads a then { s with accum.add := some { a with read := some (readWord s.mem (addAddress s a)) } }
  else nextAddPoint a (ownWrite (addAddress s a) (addWord s a) (some a.slot) none s)

end Sys2Proof.Machine
end

