-- ==== Sys2Proof/Machine/ShotIntake.lean ====
section
/-! DEFINITION. Shot Intake: framing (R67 to R71), acceptance (R72), rejection (R73), losses (R76) and the failure
limit (R77). -/

namespace Sys2Proof.Machine

/-! ### Fields of a header (12.5) -/

def shotSlot (w : Word) : Nat := field w 0 5

def shotSource (w : Word) : BitVec 2 := w.extractLsb' 8 2

def shotClipped (w : Word) : Bool := flagBit w 12

def shotSequence (w : Word) : BitVec 16 := w.extractLsb' 16 16

/-! ### The end of a shot -/

/-- A shot's entry leaves the outstanding list (R72, R73, R76). -/
def dropShot (sequence : BitVec 16) (s : State) : State :=
  { s with intake.outstanding := s.intake.outstanding.filter fun x => x.sequence != sequence }

/-- A count that stops at 65,535 (R64). -/
def countUp (n : Nat) : Nat := if n < 65535 then n + 1 else n

/-- The consecutive-failure count has risen: at the failure limit the slot ends FAULTED, reason SAMPLER, and the run
ends (R77). -/
def failureTest (s : State) : State :=
  if s.intake.failures = headerFailureLimit (activeHeader s) then endRunOf (awaitCompare .faultedSampler s) else s

/-- The record in progress is rejected; it is a record of slot `k` (R73 steps 1 to 5). Step 6, the report to Optical
Control, follows the whole step's changes (R82): `testFire`, where the rejection is called. -/
def reject (reason : RejectReason) (k : SlotIx) (f : Frame) (s : State) : State :=
  let s1 := setBuffer f.buffer .free (dropShot f.sequence s)
  failureTest { s1 with
    intake.framing := none
    intake.rejected := modifySlot s.intake.rejected k countUp
    intake.lastReject := s.intake.lastReject.set k reason
    intake.failures := s.intake.failures + 1 }

/-- A shot of slot `k` is lost (R76 steps 1 to 5); step 6, as for a rejection, follows where the loss is called
(R82). -/
def lose (k : SlotIx) (x : Shot) (s : State) : State :=
  let s1 := setBuffer x.buffer .free (dropShot x.sequence s)
  failureTest { s1 with
    intake.framing := s.intake.framing.filter fun f => f.sequence != x.sequence
    intake.lost := modifySlot s.intake.lost k countUp
    intake.failures := s.intake.failures + 1 }

/-- The record in progress, if there is one, is rejected; without a slot in FIRING or RESTING nothing is in progress. -/
def rejectInProgress (reason : RejectReason) (s : State) : State :=
  match s.intake.framing, shootingSlot s with
  | some f, some k => reject reason k f s
  | _, _ => { s with intake.framing := none }

/-! ### Headers (R68, R69) -/

/-- A record of slot `k` framed into the buffer of its shot (R69). -/
def frameRecord (k : SlotIx) (x : Shot) (header : Word) (s : State) : State :=
  setBuffer x.buffer (.filling ⟨header, []⟩) { s with
    intake.framing := some
      { buffer := x.buffer
        sequence := x.sequence
        next := 1
        check := recPoints (activeRecord s k) / 2 + 1
        crc := crcWord crcPreset header } }

/-- The header is STALE (R69, R83). -/
def staleHeader (s : State) : State := { s with intake.stray := true }

/-- The header matches the younger entry: the oldest is lost, and the record is framed unless that loss has ended the
run (R69; log entry 13). -/
def overtake (k : SlotIx) (old young : Shot) (header : Word) (s : State) : State :=
  let s1 := lose k old s
  if shootingSlot s1 = some k then frameRecord k young header s1 else s1

/-- A header matched against the outstanding list of slot `k` (R69). -/
def matchShot (k : SlotIx) (header : Word) (s : State) : State :=
  match s.intake.outstanding with
  | old :: rest =>
    if old.sequence = shotSequence header then frameRecord k old header s
    else
      match rest.find? fun x => x.sequence == shotSequence header with
      | some young => overtake k old young header s
      | none => staleHeader s
  | [] => staleHeader s

/-- A header matched against the acquisition slot (R69). -/
def matchHeader (header : Word) (s : State) : State :=
  match shootingSlot s with
  | some k =>
    if shotSlot header = k.val ∧ shotSource header = recSource (activeRecord s k) then matchShot k header s
    else staleHeader s
  | none => staleHeader s

/-- The two parts of a header write (R68): a record in progress is rejected TRUNCATED first; if that has ended the run
the header is discarded. -/
def frameHeader (header : Word) (s : State) : State :=
  if s.intake.framing.isSome then
    let s1 := rejectInProgress .truncated s
    if (shootingSlot s).isSome ∧ shootingSlot s1 = none then s1 else matchHeader header s1
  else matchHeader header s

/-- A header write is one step, its report to Optical Control made after its own changes: where the step has rejected
or lost a shot, which raises the consecutive-failure count, the firing conditions are tested (R68, R73 step 6, R76
step 6, R82). -/
def headerWritten (header : Word) (s : State) : State :=
  let t := frameHeader header s
  if t.intake.failures = s.intake.failures then t else testFire t

/-! ### Words (R70, R71, R72) -/

/-- A sample word stored in the buffer being filled. -/
def appendSample (w : Word) : Buffer → Buffer
  | .filling r => .filling { r with samples := r.samples ++ [w] }
  | b => b

/-- A sample word taken (R70). -/
def takeSample (f : Frame) (w : Word) (s : State) : State :=
  setBuffer f.buffer (appendSample w (bufferAt s f.buffer)) { s with
    intake.framing := some { f with next := f.next + 1, crc := crcWord f.crc w } }

/-- The record a buffer is filling. -/
def bufferRecord (s : State) (i : BufIx) : ShotRecord :=
  match bufferAt s i with
  | .filling r => r
  | .queued r => r
  | _ => ⟨0#32, []⟩

/-- How many staging buffers are QUEUED. -/
def queuedBuffers (s : State) : Nat :=
  (if s.intake.buffer0 matches .queued _ then 1 else 0) + (if s.intake.buffer1 matches .queued _ then 1 else 0)

/-- The CLIPPED condition of an accepted record (R72 step 4, R100, R101). -/
def raiseClipped (k : SlotIx) (s : State) : State :=
  raiseCondition .clipped k { s with trace.clipNote := s.trace.clipNote.set k true }

/-- The LAST ACCEPTED timepoint (R62, R72 step 5). -/
def lastAcceptedTest (k : SlotIx) (s : State) : State :=
  if s.intake.accepted[k] + queuedBuffers s = recTarget (activeRecord s k) ∧
      headerLastAccepted (activeHeader s) = true then deassertTestActive s
  else s

/-- A record of slot `k` accepted (R72). -/
def acceptRecord (k : SlotIx) (f : Frame) (s : State) : State :=
  let r := bufferRecord s f.buffer
  let clipped := shotClipped r.header
  let s1 := setBuffer f.buffer (.queued r) (dropShot f.sequence { s with intake.framing := none })
  let s2 := testAdd { s1 with
    accum.queue := s1.accum.queue ++ [⟨k, f.buffer, clipped⟩]
    intake.failures := 0 }
  testFire (lastAcceptedTest k (if clipped then raiseClipped k s2 else s2))

/-- The check word: the record is judged (R71). -/
def judgeRecord (k : SlotIx) (f : Frame) (check : Word) (s : State) : State :=
  if check.extractLsb' 0 16 ≠ f.crc then testFire (reject .check k f s)
  else if shotClipped (bufferRecord s f.buffer).header && recRejectClipped (activeRecord s k) then
    testFire (reject .clipped k f s)
  else acceptRecord k f s

/-- A full-word write at a word offset other than 0 (R67, R70, R71). -/
def wordWritten (offset : Nat) (w : Word) (s : State) : State :=
  match s.intake.framing, shootingSlot s with
  | some f, some k =>
    if offset ≠ f.next then testFire (reject .misordered k f s)
    else if offset < f.check then takeSample f w s
    else judgeRecord k f w s
  | _, _ => s

/-- A write with a byte enable clear (R67). -/
def partialWritten (s : State) : State :=
  match s.intake.framing with
  | some _ => testFire (rejectInProgress .partialWrite s)
  | none => s

/-- A shot-window write that Shot Intake takes, classed by its offset and enables; in OFF it is discarded (R67). -/
def shotWindowWrite (offset : Nat) (be : Enables) (w : Word) (s : State) : State :=
  if s.seq.state = .off then s
  else if be ≠ 0xF#4 then partialWritten s
  else if offset = 0 then headerWritten w s
  else wordWritten offset w s

/-! ### Deadlines (R76) -/

/-- The deadline of the outstanding shot with this sequence expires. -/
def deadlineExpired (sequence : BitVec 16) (s : State) : State :=
  match s.intake.outstanding.find? fun x => x.sequence == sequence, shootingSlot s with
  | some x, some k => testFire (lose k x s)
  | _, _ => s

end Sys2Proof.Machine
end

