-- ==== Sys2Proof/Machine/Sequencer.lean ====
section
/-! DEFINITION. The Sweep Sequencer: lanes and offers (R30 to R33), the guard check (R51, R54), sweep starts and ends
(R26, R28, R29, R35 to R38), and abandonment (R39). -/

namespace Sys2Proof.Machine

/-! ### Settling and the guard check (R51, R54) -/

/-- The phase of the slot in the acquisition lane changed and reported (R31, R45, R63). -/
def setPhase (p : AcqPhase) (s : State) : State :=
  match s.seq.acq with
  | some l => report { s with seq.acq := some { l with phase := p } }
  | none => s

/-- The guard is sampled at entry into GUARDING: result LIVE, or FIRING with the first test of the firing conditions
(R54, R56; log entry 14). -/
def guardCheck (s : State) : State :=
  if s.pins.liveLight then awaitCompare .live s else testFire (setPhase .firing s)

/-- SETTLING ends when the port is SETTLED and the slot's source WARM (R51). -/
def settlingTest (s : State) : State :=
  match s.seq.acq with
  | some l =>
    if l.phase = .settling ∧ s.opt.settled = true ∧ warmOf s (recSource (activeRecord s l.slot)) = .warm then
      guardCheck (setPhase .guarding s)
    else s
  | none => s

/-! ### Offers (R30) -/

/-- A slot's entry of the outcome table set (R34). -/
def setOutcome (k : SlotIx) (o : SlotOutcome) (s : State) : State :=
  { s with seq.outcomes := s.seq.outcomes.set k o }

/-- Slot `k` takes the acquisition lane in SETTLING, and every block takes it up (R30 step 6, R50, R61, R79, R91, R92,
R135). -/
def enterLane (k : SlotIx) (s : State) : State :=
  let s1 := setOutcome k .notRun { s with
    seq.cursor := k.val + 1
    seq.entered := true
    seq.acq := some ⟨k, .settling⟩ }
  settlingTest (report (opticalEntry k (beginRun k (recordJudgement k (judgePartner s k) s1))))

/-- The offer of slot `k` (R30 steps 2 to 6). -/
def offerSlot (k : SlotIx) (s : State) : State :=
  let s1 := applyAtEntry k s
  if recEnable (activeRecord s1 k) then
    let s2 := setPartnerIgnored k s1
    if planCheck s2 k then enterLane k s2
    else report (setOutcome k .planFault { s2 with seq.cursor := k.val + 1 })
  else { s1 with seq.orderEnded := true }

/-- The offer of the slot at the cursor (R30 step 1). -/
def offerLane (s : State) : State :=
  if h : s.seq.cursor < 24 then offerSlot ⟨s.seq.cursor, h⟩ s else { s with seq.orderEnded := true }

/-! ### The move to the comparison lane (R32) -/

/-- A result formed without a comparison (R32, R118). -/
def plainResult (s : State) (kind : Kind) (reason : FaultReason) : Result where
  kind := kind
  location := 0
  magnitude := 0
  reflective := false
  preceded := false
  masked := CondSet.empty
  reason := reason
  sweep := s.seq.sweepNumber
  injected := false
  glitches := 0

/-- The slot enters POSTING with a result. -/
def enterPosting (k : SlotIx) (r : Result) (s : State) : State := { s with seq.comp := some ⟨k, .posting r⟩ }

/-- The slot enters the comparison lane with what it holds (R32). -/
def enterComparison (k : SlotIx) (held : Held) (s : State) : State :=
  match held with
  | .accumulation =>
    if s.verdict.table[k].based then startCompareRun k { s with seq.comp := some ⟨k, .comparing⟩ }
    else enterPosting k (plainResult s .unbased .none) s
  | .live => enterPosting k (plainResult s .live .none) s
  | .faultedSampler => enterPosting k (plainResult s .faulted .sampler) s

/-- Slot `k` moves from AWAITING COMPARE to the comparison lane (R32, R52, R62). -/
def moveToComparison (k : SlotIx) (held : Held) (s : State) : State :=
  report (enterComparison k held (leaveLane (recSource (activeRecord s k)) { s with seq.acq := none }))

/-- The lanes call for a move or an offer: a slot in AWAITING COMPARE with the comparison lane free, or an empty
acquisition lane with the order-ended and quiet-end marks clear (R30, R32). -/
def laneCalls (s : State) : Bool :=
  s.seq.state = .sweeping &&
  match s.seq.acq with
  | some ⟨_, .awaiting _⟩ => s.seq.comp.isNone
  | some _ => false
  | none => !(s.seq.orderEnded || s.seq.quietEnd)

/-- The move or offer the lanes call for (R30, R32). -/
def laneMove (s : State) : State :=
  match s.seq.acq with
  | some ⟨k, .awaiting held⟩ => moveToComparison k held s
  | some _ => s
  | none => offerLane s

/-- Moves and offers until none is called for, at most `n` (log entry 26). -/
def lanes : Nat → State → State
  | 0, s => s
  | n + 1, s => if laneCalls s then lanes n (laneMove s) else s

/-! ### Sweep starts (R28, R29) -/

/-- The active sweep mode. -/
def activeMode (s : State) : SweepMode := headerMode (activeHeader s)

/-- The slots listed at an end other than COMPLETE: from the cursor up to the first slot whose active enable is 0 (R36
step 1). -/
def listedFrom (s : State) (cursor : Nat) : List SlotIx :=
  ((List.finRange 24).filter fun k => cursor ≤ k.val).takeWhile fun k => recEnable (activeRecord s k)

/-- The listed slots take NOT RUN (R36 step 1). -/
def listSlots : List SlotIx → State → State
  | [], s => s
  | k :: rest, s => listSlots rest (setOutcome k .notRun s)

/-- The sweep summary as composed at the end (R37). -/
def composeSummary (reason : EndReason) (s : State) : Summary where
  sweep := s.seq.sweepNumber
  mode := s.seq.mode
  reason := reason
  empty := !s.seq.entered
  posted := s.findings.posted
  deferred := s.findings.deferred
  outcomes := s.seq.outcomes

/-- The sweep-end notice is requested but at a COMPLETE end of a LOOP sweep that is not empty (R36 step 4). -/
def endNotice (reason : EndReason) (s : State) : Bool :=
  !(reason = .complete && s.seq.mode = .loop && s.seq.entered)

/-- Steps 1 to 4 of a sweep end (R36). -/
def endSteps (reason : EndReason) (s : State) : State :=
  let s1 := if reason = .complete then s else listSlots (listedFrom s s.seq.cursor) s
  let s2 := resolvePending (List.finRange 24) s1
  report (queueSummary (composeSummary reason s2) (endNotice reason s2) s2)

/-- A state other than SWEEPING entered: dirty regions apply (R10, R36 step 5). -/
def enterState (st : SeqState) (s : State) : State := report (applyOutside { s with seq.state := st })

/-- The start of a sweep, steps 1 to 9; the offer of step 10 is the next lane step (R28, R29). -/
def startSweep (s : State) : State :=
  let s1 := applyAtSweepStart { s with
    seq.state := .sweeping
    seq.sweepNumber := s.seq.sweepNumber + 1 }
  let s2 := clearPairs { s1 with
    seq.mode := activeMode s1
    seq.outcomes := Vector.replicate 24 .notInSweep
    seq.cursor := 0
    seq.orderEnded := false
    seq.quietEnd := false
    seq.entered := false
    findings.posted := 0
    findings.deferred := 0 }
  if s2.plan.ringFault then enterState .halted (endSteps .headerFault (report s2)) else report s2

/-- The test of R26 in WAITING: with the active mode ONCE or LOOP a sweep starts when the gate is asserted. -/
def waitingTest (s : State) : State :=
  if s.seq.state = .waiting ∧ activeMode s ≠ .triggered ∧ s.pins.gate = true then startSweep s else s

/-- WAITING entered, and tested at once (R26, R36). -/
def enterWaiting (s : State) : State := waitingTest (enterState .waiting s)

/-- A sweep starts if the gate is asserted, otherwise WAITING is entered (R25, R42, R43). -/
def startOrWait (s : State) : State := if s.pins.gate then startSweep s else enterWaiting s

/-! ### Sweep ends (R35, R36, R38) -/

/-- The next state after a COMPLETE end (R36 step 5). -/
def afterComplete (s : State) : State :=
  match s.seq.mode with
  | .once => enterState .idle s
  | .loop => if s.seq.entered then startOrWait s else enterState .idle s
  | .triggered => enterWaiting s

/-- A sweep whose lanes are empty ends: COMPLETE when its order has ended, otherwise QUIET (R35, R38). -/
def endSweep (s : State) : State :=
  if s.seq.orderEnded then afterComplete (endSteps .complete s) else enterWaiting (endSteps .quiet s)

/-- The sweep in progress is over: both lanes empty with the order-ended or quiet-end mark set (R35, R38). -/
def sweepOver (s : State) : Bool :=
  s.seq.state = .sweeping && s.seq.acq.isNone && s.seq.comp.isNone && (s.seq.orderEnded || s.seq.quietEnd)

/-- Moves, offers and sweep ends until none is called for; each end may start a sweep, at most `n` (log entry 26). -/
def sweepOn : Nat → State → State
  | 0, s => s
  | n + 1, s =>
    let s1 := lanes 32 s
    if sweepOver s1 then sweepOn n (endSweep s1) else s1

/-- What follows any event without a further one: moves, offers and ends of the sweep, and the Trace Engine run as far
as it goes without a grant. -/
def advance (s : State) : State := runTrace (sweepOn 3 s)

/-! ### Abandonment (R39) -/

/-- What every block does for an abandoned slot's run but for its source: no further fire, test-active deasserted, a
running settle cut short, the run ended, its guard lifted, its ready flag cleared (R39, R48, R58, R62, R80, R93). -/
def dropAcquisition (k : SlotIx) (s : State) : State :=
  setReady k false (liftGuard .run k (endRunOf
    (stopSettle (spacingElapsed (deassertTestActive { s with seq.acq := none })))))

/-- The slot in the acquisition lane abandoned; `keepSource` leaves its source to the warm-hold timer, as RESTART and
the quiet-hours gate do (R39, R52). -/
def abandonAcquisition (keepSource : Bool) (s : State) : State :=
  match s.seq.acq with
  | some l =>
    let s1 := dropAcquisition l.slot s
    report (if keepSource then leaveLane (recSource (activeRecord s l.slot)) s1 else s1)
  | none => s

/-- The slot in the comparison lane abandoned (R39). -/
def abandonComparison (s : State) : State :=
  match s.seq.comp with
  | some l => report (setReady l.slot false (liftGuard .run l.slot (endCompareRun l.slot { s with seq.comp := none })))
  | none => s

/-- Both lanes abandoned (R39). -/
def abandonLanes (keepSource : Bool) (s : State) : State := abandonComparison (abandonAcquisition keepSource s)

/-! ### Taking a result (R33, R136) -/

/-- The outcome of a slot whose result is taken (R33). -/
def outcomeOf (r : Result) : SlotOutcome :=
  match r.kind with
  | .live => .live
  | .faulted => .faulted
  | _ => .done

/-- The Verdict Unit takes the result of the slot in POSTING, which leaves the comparison lane, its guard lifted (R33,
R92, R136). -/
def takePosted (s : State) : State :=
  match s.seq.comp with
  | some ⟨k, .posting r⟩ =>
    report (liftGuard .run k (setOutcome k (outcomeOf r) { verdictTake k r s with seq.comp := none }))
  | _ => s

end Sys2Proof.Machine
end

