-- ==== Sys2Proof/Machine/Commands.lean ====
section
/-! DEFINITION. The commands of the command word (R18, R19): what each owner answers and does. -/

namespace Sys2Proof.Machine

/-- An owner's answer: the state it leaves and the outcome (R19, R20). -/
abbrev Answer := State × CmdOutcome

/-- A refusal changes no state (R20). -/
def refuse (o : CmdOutcome) (s : State) : Answer := (s, o)

/-! ### What several commands share -/

/-- Both lanes abandoned with their sources to turn COLD, the run and the background operation ended, no guard left
(R24, R44, R81, R169). -/
def endAllWork (s : State) : State :=
  let s1 := if s.seq.state = .sweeping then clearPairs (abandonLanes false s) else abandonLanes false s
  let s2 := endBackground (endRunOf s1)
  { s2 with path.guards := [], intake.failures := 0 }

/-- Every source COLD, test-active deasserted, spacing elapsed: what STOP, DISABLE and REINIT share (R53). -/
def quenchOptics (s : State) : State := coldAll (deassertTestActive (spacingElapsed s))

/-- The sequencer set to rest in a state with its cursor and marks cleared (R24, R44). -/
def restSequencer (st : SeqState) (s : State) : State :=
  { s with
    seq.state := st
    seq.cursor := 0
    seq.orderEnded := false
    seq.quietEnd := false
    seq.entered := false }

/-! ### Sweep Sequencer commands -/

/-- ENABLE (R23, R14, R59). -/
def commandEnable (s : State) : Answer :=
  if s.seq.state = .off then
    if s.plan.ringFault then refuse .refusedOperand s
    else
      ({ s with
        seq.state := .idle
        opt.dutyTimer := some (headerDutyPeriod (activeHeader s))
        opt.dutyCount := ⟨0, 0, 0⟩ }, .accepted)
  else refuse .refusedState s

/-- DISABLE (R24). -/
def commandDisable (s : State) : Answer :=
  let s1 := parkSwitch (quenchOptics (endAllWork s))
  let s2 := { s1 with opt.dutyTimer := none, opt.dutyCount := ⟨0, 0, 0⟩ }
  (applyOutside (restSequencer .off s2), .accepted)

/-- START (R25). -/
def commandStart (s : State) : Answer :=
  match s.seq.state with
  | .idle =>
    if deferring s then refuse .refusedBusy s
    else if activeMode s = .triggered then (enterWaiting s, .accepted)
    else (startOrWait s, .accepted)
  | .off => refuse .refusedState s
  | .halted => refuse .refusedState s
  | _ => refuse .refusedBusy s

/-- STOP (R40). -/
def commandStop (s : State) : Answer :=
  match s.seq.state with
  | .off => refuse .refusedState s
  | .sweeping => (enterState .halted (endSteps .stopped (abandonLanes false (quenchOptics s))), .accepted)
  | _ => (enterState .halted (quenchOptics s), .accepted)

/-- RESUME (R41). -/
def commandResume (s : State) : Answer :=
  if s.seq.state = .halted then ({ s with seq.state := .idle }, .accepted) else refuse .refusedState s

/-- RESTART, step 4: PAUSED, a sweep or WAITING (R42). -/
def restartNext (s : State) : State :=
  if headerPauseOnRestart (activeHeader s) then enterState .paused s else startOrWait s

/-- RESTART (R12, R42). -/
def commandRestart (s : State) : Answer :=
  match s.seq.state with
  | .sweeping => (restartNext (endSteps .restarted (applyDirty (abandonLanes true s))), .accepted)
  | .waiting => (restartNext (applyDirty s), .accepted)
  | .paused => (restartNext (applyDirty s), .accepted)
  | _ => refuse .refusedState s

/-- RELEASE (R43). -/
def commandRelease (s : State) : Answer :=
  if s.seq.state = .paused then (startOrWait s, .accepted) else refuse .refusedState s

/-- The part is armed for a trigger and the gate is asserted (R27). -/
def triggerCounts (s : State) : Bool := s.seq.state = .waiting && activeMode s = .triggered && s.pins.gate

/-- TRIGGER (R27). -/
def commandTrigger (s : State) : Answer :=
  if triggerCounts s then (startSweep s, .accepted) else refuse .refusedState s

/-! ### Soft reset and clearing -/

/-- What CLEAR CONDITIONS and REINIT clear alike (R105, R175, R83, R108). -/
def clearMarks (s : State) : State :=
  { s with
    trace.summary := CondSet.empty
    trace.capture := none
    trace.captureOverrun := false
    trace.squeezed := false
    intake.stray := false
    path.strayAccess := false
    path.guardHit := false
    findings.captureNotice := false }

/-- CLEAR CONDITIONS (R105, R153). -/
def commandClearConditions (s : State) : Answer :=
  (queueCapture none false (withdrawCaptureNotice (clearMarks s)), .accepted)

/-- REINIT (R44 and the blocks' own rules: R81, R91, R105, R153). -/
def commandReinit (s : State) : Answer :=
  let s1 := parkSwitch (quenchOptics (endAllWork s))
  let s2 := queueCapture none false (withdrawNotices (clearMarks { s1 with
    accum.ready := Vector.replicate 24 false
    findings.sweepEndNotice := false }))
  (applyOutside (restSequencer (if s.seq.state = .off then .off else .idle) s2), .accepted)

/-- ACK NOTICES (R153). -/
def commandAckNotices (s : State) : Answer := ({ s with findings.sweepEndNotice := false }, .accepted)

/-! ### Commands with a slot -/

/-- The background slot is FREE. -/
def bgFree (s : State) : Bool := s.trace.bg.isNone

/-- ADOPT (R122, R123). -/
def commandAdopt (k : SlotIx) (s : State) : Answer :=
  if s.seq.state ≠ .idle ∧ s.seq.state ≠ .halted then refuse .refusedState s
  else if bgFree s = false then refuse .refusedBusy s
  else if s.accum.ready[k] = false then refuse .refusedNotReady s
  else (startAdopt k s, .accepted)

/-- COMPARE (R127, R128). -/
def commandCompare (k : SlotIx) (s : State) : Answer :=
  if s.seq.state ≠ .halted then refuse .refusedState s
  else if bgFree s = false then refuse .refusedBusy s
  else if recInjected (activeRecord s k) = 0 then refuse .refusedOperand s
  else (startCompareCommand k s, .accepted)

/-- A slot holds a lane. -/
def holdsLane (s : State) (k : SlotIx) : Bool :=
  s.seq.acq.any (fun l => l.slot = k) || s.seq.comp.any (fun l => l.slot = k)

/-- An ADOPT is in flight whose baseline buffer shares a word with slot `k`'s active baseline buffer (R134). -/
def adoptOverlaps (s : State) (k : SlotIx) : Bool :=
  match s.trace.bg with
  | some b => b.op = .adopt && rangesMeet (recBaseBase b.record) (recPoints b.record)
      (recBaseBase (activeRecord s k)) (recPoints (activeRecord s k))
  | none => false

/-- MARK BASED (R134). -/
def commandMarkBased (k : SlotIx) (s : State) : Answer :=
  if holdsLane s k || adoptOverlaps s k then refuse .refusedBusy s else (setBased k true s, .accepted)

/-- A command with a slot operand of 0 to 23; a larger operand is refused (R19 test 2). -/
def withSlot (operand : BitVec 8) (f : SlotIx → State → Answer) (s : State) : Answer :=
  if h : operand.toNat < 24 then f ⟨operand.toNat, h⟩ s else refuse .refusedOperand s

/-- A named command passed to its owner (R19). -/
def runCommand (c : CommandName) (operand : BitVec 8) (s : State) : Answer :=
  match c with
  | .enable => commandEnable s
  | .disable => commandDisable s
  | .start => commandStart s
  | .stop => commandStop s
  | .resume => commandResume s
  | .restart => commandRestart s
  | .release => commandRelease s
  | .trigger => commandTrigger s
  | .reinit => commandReinit s
  | .adopt => withSlot operand commandAdopt s
  | .compare => withSlot operand commandCompare s
  | .markBased => withSlot operand commandMarkBased s
  | .clearConditions => commandClearConditions s
  | .ackNotices => commandAckNotices s

/-! ### The command word (R18, R19, R20) -/

/-- A named command taken: the owner acts, and what it has started goes on as far as it goes; the outcome is recorded. -/
def takeNamed (c : CommandName) (operand code tag : BitVec 8) (s : State) : State :=
  let r := runCommand c operand s
  recordOutcome code tag r.2 (if r.2 = .accepted then advance (report r.1) else s)

/-- A full-word write of the command word decoded (R19). -/
def takeFullCommand (data : Word) (s : State) : State :=
  match decodeCode (byteOf data 0) with
  | some c => takeNamed c (byteOf data 1) (byteOf data 0) (byteOf data 3) s
  | none => recordOutcome (byteOf data 0) (byteOf data 3) .unknownCode s

/-- A byte of a write, zero where its enable is clear (R18). -/
def enabledByte (be : Enables) (data : Word) (i : Nat) : BitVec 8 := if be.getLsbD i then byteOf data i else 0#8

/-- A write of the command word taken by Plan Capture (R18). -/
def takeCommand (be : Enables) (data : Word) (s : State) : State :=
  if be = 0xF#4 then takeFullCommand data s
  else recordOutcome (enabledByte be data 0) (enabledByte be data 3) .refusedForm s

end Sys2Proof.Machine
end

