-- ==== Sys2Proof/Machine/MemoryPath.lean ====
section
/-! DEFINITION. The Memory Path Unit: classes of access (R167), pass-through (R168), guarded words (R170), the arbiter
(R173) and the grants of PASS and POST (R150, R156). -/

namespace Sys2Proof.Machine

/-! ### Classes of access (R167) -/

/-- The classes of an upstream word address (R167, R1). -/
inductive AccessClass where
  | memory
  | planArea
  | commandWord
  | takenIndexWord
  | partWritten
  | controlPlain
  | shotWindow
  | viewWindow
  | stray
  deriving DecidableEq, Repr

/-- The class of a word's byte address, by address alone (R167). -/
def classOf (a : Nat) : AccessClass :=
  if a < 0xFFF000 then .memory
  else if a < 0xFFF880 then .planArea
  else if a < 0xFFF884 then .commandWord
  else if a < 0xFFF888 then .takenIndexWord
  else if a < 0xFFF900 then .controlPlain
  else if a < 0xFFFCE0 then .partWritten
  else if a < 0x1000000 then .controlPlain
  else if a < 0x1010000 then .shotWindow
  else if a < 0x1800000 then .stray
  else if a < 0x1810000 then .viewWindow
  else .stray

/-! ### Taking an access -/

/-- An access passed to memory becomes the PASS request (R168). -/
def passAccess (a : Access) (s : State) : State := { s with path.pass := some a }

/-- A read answered by the unit itself (R167). -/
def answerRead (w : Word) (s : State) : State := { s with path.readData := w }

/-- A write discarded as guarded or part-written (R167, R170). -/
def hitGuard (s : State) : State := { s with path.guardHit := true }

/-- An access to a stray address (R167, R175). -/
def takeStray (a : Access) (s : State) : State :=
  let s1 := { s with path.strayAccess := true }
  if a.write then s1 else answerRead 0#32 s1

/-- The header applies at this moment outside SWEEPING (R10, R26). -/
def headerAppliesNow (s : State) : Bool :=
  s.seq.state != .sweeping && !deferring s && !holdFlag s && headerDue s

/-- In WAITING an application of the header is tested by R26. -/
def testAfterHeader (applied : Bool) (s : State) : State := if applied then advance (waitingTest s) else s

/-- A plan write copied to Plan Capture: merged, and applied at once outside SWEEPING (R1, R7, R8, R10, R26). -/
def takePlanWrite (a : Access) (s : State) : State :=
  let s1 := mergePlan (a.word % 0x1000) a.be a.data s
  testAfterHeader (headerAppliesNow s1) (report (applyOutside s1))

/-- A taken index write: the Findings Unit judges it, and an accepted one that leaves the ring empty is reported to Plan
Capture (R151, R13). -/
def takeTakenIndex (a : Access) (s : State) : State :=
  let t := a.data.extractLsb' 0 16
  let s1 := writeTaken a.be t s
  if takenAccepted s a.be t && ringEmpty s1 then ringReportedEmpty s1 else s1

/-- A write classed as memory: discarded if guarded, otherwise passed (R170). -/
def takeMemoryWrite (a : Access) (s : State) : State := if guarded s a.word then hitGuard s else passAccess a s

/-- A write to the shot window: Shot Intake takes it, and the lanes go on (R167). -/
def takeShotWrite (a : Access) (s : State) : State :=
  advance (report (shotWindowWrite (a.word % 0x10000 / 4) a.be a.data s))

/-- A write by class (R167). -/
def takeWrite (a : Access) (s : State) : State :=
  match classOf a.word with
  | .memory => takeMemoryWrite a s
  | .planArea => passAccess a (takePlanWrite a s)
  | .commandWord => passAccess a (takeCommand a.be a.data s)
  | .takenIndexWord => passAccess a (takeTakenIndex a s)
  | .partWritten => hitGuard s
  | .controlPlain => passAccess a s
  | .shotWindow => takeShotWrite a s
  | .viewWindow => s
  | .stray => takeStray a s

/-- A read by class (R167). -/
def takeRead (a : Access) (s : State) : State :=
  match classOf a.word with
  | .shotWindow => answerRead 0#32 s
  | .viewWindow => arriveView a s
  | .stray => takeStray a s
  | _ => passAccess a s

/-- An access taken by the Memory Path Unit; what it changes is reported (R156). -/
def takeAccess (a : Access) (s : State) : State := report (if a.write then takeWrite a s else takeRead a s)

/-! ### The upstream bus (R162, R168, R178) -/

/-- The bus is free: no PASS request stands, no view read is held, and reset is not asserted. -/
def busFree (s : State) : Bool := s.path.pass.isNone && s.trace.view.isNone && !s.pins.resetAsserted

/-- Accesses taken in order while the bus is free; the rest wait (log entry 4). -/
def serveBus : List Access → State → State
  | [], s => { s with path.waiting := [] }
  | a :: rest, s => if busFree s then serveBus rest (takeAccess a s) else { s with path.waiting := a :: rest }

/-- An access presented upstream: taken at once, or after those that wait before it (log entry 4). -/
def present (a : Access) (s : State) : State := serveBus (s.path.waiting ++ [a]) s

/-- An event other than an access: nothing acts while reset is asserted (R178); what changes is reported (R156), and an
access that waited is taken if the bus has become free. -/
def happen (f : State → State) (s : State) : State :=
  if s.pins.resetAsserted then s
  else
    let s1 := report (f s)
    serveBus s1.path.waiting s1

/-! ### The arbiter (R173) -/

/-- The requesters of the memory port. -/
inductive Requester where
  | pass | viewFetch | post | accum | trace
  deriving DecidableEq, Repr

/-- A VIEW FETCH request stands (R162 step 5). -/
def viewFetchStands (s : State) : Bool :=
  match s.trace.view with
  | some ⟨_, .fetching _ _ _⟩ => true
  | _ => false

/-- A status word is dirty. -/
def anyDirty (s : State) : Bool := s.mirror.dirty.toList.any id

/-- A POST request stands: a record waits or a status word is dirty (R156; log entry 9). -/
def postStands (s : State) : Bool := !s.findings.queue.isEmpty || s.findings.resetCapture != 0 || anyDirty s

/-- An ACCUM request stands: an add is in progress (R87). -/
def accumStands (s : State) : Bool := s.accum.add.isSome

/-- A TRACE request stands: a background operation goes on, and no view read pauses it (R119, R163, R174). -/
def traceStands (s : State) : Bool := (runningOperation s).isSome

/-- The first standing engine, in the order of R173. -/
def firstEngine (s : State) : Option Requester :=
  if viewFetchStands s then some .viewFetch
  else if postStands s then some .post
  else if accumStands s then some .accum
  else if traceStands s then some .trace
  else none

/-- The arbiter's decision: who is granted, and the consecutive-PASS count after (R173). -/
def decision (s : State) : Option (Requester × Nat) :=
  match s.path.pass, firstEngine s with
  | some _, none => some (.pass, 0)
  | some _, some e => if s.path.passCount < 8 then some (.pass, s.path.passCount + 1) else some (e, 0)
  | none, some e => some (e, 0)
  | none, none => none

/-- A grant to a requester: it takes place where the arbiter's decision gives it (R173, R174; log entry 3). -/
def granted (r : Requester) (f : State → State) (s : State) : State :=
  match decision s with
  | some (d, count) => if d = r then f { s with path.passCount := count } else s
  | none => s

/-! ### PASS grants (R168, R171) -/

/-- The standing access reaches memory. -/
def passGranted (s : State) : State :=
  match s.path.pass with
  | some a =>
    let s1 := { s with path.pass := none }
    if a.write then
      let s2 := { s1 with mem := writeWord s.mem a.word a.be a.data }
      if a.be = 0#4 then s2 else runTrace (endAdoptIfCleared a.word s (snoop a.word none none s2))
    else answerRead (readWord s.mem a.word) s1
  | none => s

/-! ### POST grants (R150, R156) -/

/-- The head record of the queue with all its words granted: it leaves the queue (R150). -/
def finishRecord (r : QRecord) (rest : List QRecord) (s : State) : State :=
  recordWritten r { s with findings.queue := rest, findings.headWord := 0 }

/-- The next word of the head record written (R150). -/
def postRecordWord (r : QRecord) (rest : List QRecord) (s : State) : State :=
  let i := s.findings.headWord
  let base := if i = 0 then recordBase s r else s.findings.headBase
  let s1 := ownWrite (base + 4 * i) ((recordWords r).getD i 0#32) none none { s with findings.headBase := base }
  if i + 1 < (recordWords r).length then { s1 with findings.headWord := i + 1 } else finishRecord r rest s1

/-- The next word of the invalid capture record after a hard reset (R105; log entry 9). -/
def postResetWord (s : State) : State :=
  ownWrite (0xFFFC80 + 4 * (4 - s.findings.resetCapture)) 0#32 none none
    { s with findings.resetCapture := s.findings.resetCapture - 1 }

/-- The order in which dirty status words are written: the sweep number, the slot status entries, the rest of the
general part (R156). -/
def statusOrder : List (Fin 224) :=
  (List.finRange 224).filter (fun i => i.val = 0) ++ (List.finRange 224).filter (fun i => 32 ≤ i.val) ++
    (List.finRange 224).filter (fun i => 0 < i.val ∧ i.val < 32)

/-- The status word to write next. -/
def nextDirty (s : State) : Option (Fin 224) := statusOrder.find? fun i => s.mirror.dirty[i]

/-- A status word written with its value in the image; its mark clears (R156). -/
def postStatusWord (i : Fin 224) (s : State) : State :=
  ownWrite (statusAddress i.val) s.mirror.image[i] none none
    { s with mirror.dirty := s.mirror.dirty.set i false }

/-- The word of a POST grant: the next record word, else the next word of the reset's capture record, else the next
dirty status word (R156). A record that joins the queue goes out before what is left of the reset's capture record:
DEDUCED, R156 and R177 do not settle it (log entry 43). -/
def postWord (s : State) : State :=
  match s.findings.queue with
  | r :: rest => postRecordWord r rest s
  | [] =>
    if s.findings.resetCapture ≠ 0 then postResetWord s
    else
      match nextDirty s with
      | some i => postStatusWord i s
      | none => s

/-- A POST grant; an ADOPT that its write has ended lets a waiting view read go on (R126, R163). -/
def postGranted (s : State) : State := runTrace (postWord s)

/-! ### Engine grants -/

/-- An ACCUM grant (R87). -/
def accumGranted (s : State) : State :=
  match s.accum.add with
  | some a => advance (addWordGranted a s)
  | none => s

/-- A TRACE grant (R119). Where the word ends the operation, the end applies the deferred regions before a view read
that waited for the point is taken up (R10, R163; log entry 40). -/
def traceGranted (s : State) : State :=
  match s.trace.bg with
  | some b => advance (traceWordGranted b s)
  | none => s

/-- A VIEW FETCH grant (R162 step 5). -/
def viewFetchGranted (s : State) : State := runTrace (viewWordGranted s)

end Sys2Proof.Machine
end

