-- ==== Sys2Proof/Machine/CommandWord.lean ====
section
/-! DEFINITION. The meanings of the sixteen writes of the command word (R18, R19): each is an upstream write of the word
at 0xFFF880, taken by the Memory Path Unit (R167), decoded by Plan Capture and passed to memory (R168). -/

namespace Sys2Proof.Machine

/-- The upstream write of a word of the control page. -/
def pageWrite (offset : BitVec 12) (be : Enables) (data : Word) : Access :=
  ⟨0xFFF000#25 + offset.setWidth 25, true, be, data⟩

/-- The full-word write of a command. -/
def commandWrite (c : CommandName) (operand spare tag : BitVec 8) : Access :=
  pageWrite 0x880#12 0xF#4 (c.word operand spare tag)

/-- ENABLE: see `commandEnable` (R23). -/
def execEnable (operand spare tag : BitVec 8) (s : State) : Host.Outcome State Fault Refusal :=
  .next (present (commandWrite .enable operand spare tag) s)

/-- DISABLE: see `commandDisable` (R24). -/
def execDisable (operand spare tag : BitVec 8) (s : State) : Host.Outcome State Fault Refusal :=
  .next (present (commandWrite .disable operand spare tag) s)

/-- START: see `commandStart` (R25). -/
def execStart (operand spare tag : BitVec 8) (s : State) : Host.Outcome State Fault Refusal :=
  .next (present (commandWrite .start operand spare tag) s)

/-- STOP: see `commandStop` (R40). -/
def execStop (operand spare tag : BitVec 8) (s : State) : Host.Outcome State Fault Refusal :=
  .next (present (commandWrite .stop operand spare tag) s)

/-- RESUME: see `commandResume` (R41). -/
def execResume (operand spare tag : BitVec 8) (s : State) : Host.Outcome State Fault Refusal :=
  .next (present (commandWrite .resume operand spare tag) s)

/-- RESTART: see `commandRestart` (R42). -/
def execRestart (operand spare tag : BitVec 8) (s : State) : Host.Outcome State Fault Refusal :=
  .next (present (commandWrite .restart operand spare tag) s)

/-- RELEASE: see `commandRelease` (R43). -/
def execRelease (operand spare tag : BitVec 8) (s : State) : Host.Outcome State Fault Refusal :=
  .next (present (commandWrite .release operand spare tag) s)

/-- TRIGGER: see `commandTrigger` (R27). -/
def execTrigger (operand spare tag : BitVec 8) (s : State) : Host.Outcome State Fault Refusal :=
  .next (present (commandWrite .trigger operand spare tag) s)

/-- REINIT: see `commandReinit` (R44). -/
def execReinit (operand spare tag : BitVec 8) (s : State) : Host.Outcome State Fault Refusal :=
  .next (present (commandWrite .reinit operand spare tag) s)

/-- ADOPT: see `commandAdopt` (R122). -/
def execAdopt (operand spare tag : BitVec 8) (s : State) : Host.Outcome State Fault Refusal :=
  .next (present (commandWrite .adopt operand spare tag) s)

/-- COMPARE: see `commandCompare` (R127). -/
def execCompare (operand spare tag : BitVec 8) (s : State) : Host.Outcome State Fault Refusal :=
  .next (present (commandWrite .compare operand spare tag) s)

/-- MARK BASED: see `commandMarkBased` (R134). -/
def execMarkBased (operand spare tag : BitVec 8) (s : State) : Host.Outcome State Fault Refusal :=
  .next (present (commandWrite .markBased operand spare tag) s)

/-- CLEAR CONDITIONS: see `commandClearConditions` (R105). -/
def execClearConditions (operand spare tag : BitVec 8) (s : State) : Host.Outcome State Fault Refusal :=
  .next (present (commandWrite .clearConditions operand spare tag) s)

/-- ACK NOTICES: see `commandAckNotices` (R153). -/
def execAckNotices (operand spare tag : BitVec 8) (s : State) : Host.Outcome State Fault Refusal :=
  .next (present (commandWrite .ackNotices operand spare tag) s)

/-- A full-word write of the command word whose code names no command (R19 test 1). -/
def execUnknownCode (data : Word) (s : State) : Host.Outcome State Fault Refusal :=
  .next (present (pageWrite 0x880#12 0xF#4 data) s)

/-- A write of the command word with a byte enable clear (R18). -/
def execRefusedForm (be : Enables) (data : Word) (s : State) : Host.Outcome State Fault Refusal :=
  .next (present (pageWrite 0x880#12 be data) s)

end Sys2Proof.Machine
end

