-- ==== Sys2Proof/Machine/Grants.lean ====
section
/-! DEFINITION. The meanings of the five arbiter grants (R173). -/

namespace Sys2Proof.Machine

/-- A PASS grant (R168, R171). -/
def execPassGrant (s : State) : Host.Outcome State Fault Refusal := .next (happen (granted .pass passGranted) s)

/-- An ACCUM grant (R87). -/
def execAccumGrant (s : State) : Host.Outcome State Fault Refusal := .next (happen (granted .accum accumGranted) s)

/-- A TRACE grant (R119). -/
def execTraceGrant (s : State) : Host.Outcome State Fault Refusal := .next (happen (granted .trace traceGranted) s)

/-- A VIEW FETCH grant (R162). -/
def execViewFetchGrant (s : State) : Host.Outcome State Fault Refusal :=
  .next (happen (granted .viewFetch viewFetchGranted) s)

/-- A POST grant (R156). -/
def execPostGrant (s : State) : Host.Outcome State Fault Refusal := .next (happen (granted .post postGranted) s)

end Sys2Proof.Machine
end

