-- ==== Sys2Proof/Machine/Lines.lean ====
section
/-! DEFINITION. The meanings of the side-line events (R26, R27, R38, R55, R56, R178). While reset is asserted a line
event moves the level alone (R178; log entry 35). -/

namespace Sys2Proof.Machine

/-! ### The quiet-hours gate -/

/-- The gate is asserted: in WAITING the test of R26, and a slot in FIRING is tested (R26, R56). -/
def gateAsserted (s : State) : State := advance (testFire (waitingTest s))

/-- The gate is deasserted: in SWEEPING with the quiet-end mark clear the quiet end begins (R38). -/
def gateDeasserted (s : State) : State :=
  if s.seq.state = .sweeping ∧ s.seq.quietEnd = false then
    advance (abandonAcquisition true { s with seq.quietEnd := true })
  else s

/-- The gate's level set. -/
def setGate (v : Bool) (s : State) : State := { s with pins.gate := v }

/-- Assertion of the quiet-hours gate (R26). -/
def execQuietHoursGateAsserted (s : State) : Host.Outcome State Fault Refusal :=
  .next (if s.pins.gate then s else happen gateAsserted (setGate true s))

/-- Deassertion of the quiet-hours gate (R38). -/
def execQuietHoursGateDeasserted (s : State) : Host.Outcome State Fault Refusal :=
  .next (if s.pins.gate then happen gateDeasserted (setGate false s) else s)

/-! ### The live-light guard -/

/-- The guard is asserted: a slot in FIRING or RESTING ends its firing with result LIVE (R55, R80, R93). -/
def guardAsserted (s : State) : State :=
  match shootingSlot s with
  | some _ => advance (endRunOf (awaitCompare .live s))
  | none => s

/-- The guard's level set. -/
def setLiveLight (v : Bool) (s : State) : State := { s with pins.liveLight := v }

/-- Assertion of the live-light guard (R55). -/
def execLiveLightGuardAsserted (s : State) : Host.Outcome State Fault Refusal :=
  .next (if s.pins.liveLight then s else happen guardAsserted (setLiveLight true s))

/-- Deassertion of the live-light guard: the firing conditions are tested (R56). -/
def execLiveLightGuardDeasserted (s : State) : Host.Outcome State Fault Refusal :=
  .next (if s.pins.liveLight then happen testFire (setLiveLight false s) else s)

/-! ### The trigger line -/

/-- An edge of the counting sense starts a sweep where TRIGGER would; any other edge is ignored (R27). -/
def edgeTaken (sense : EdgeSense) (s : State) : State :=
  if sense = headerTriggerEdge (activeHeader s) ∧ triggerCounts s = true then advance (startSweep s) else s

/-- The trigger line's level after an edge. -/
def setTrigger (sense : EdgeSense) (s : State) : State := { s with pins.trigger := sense = .rising }

/-- An edge of the trigger line (R27; log entry 32). -/
def execTriggerEdge (sense : EdgeSense) (s : State) : Host.Outcome State Fault Refusal :=
  .next (happen (edgeTaken sense) (setTrigger sense s))

/-! ### Reset -/

/-- The accesses in hand as reset is asserted, which their master presents again (R178). -/
def inHand (s : State) : List Access :=
  s.path.pass.toList ++ (s.trace.view.map fun v => v.access).toList

/-- Every block in its hard-reset state, held there; trace memory, the levels of the other lines and the commands
waiting are kept (R2, R22, R46, R64, R84, R105, R130, R131, R148, R169, R173, R175, R178; log entries 6, 34). -/
def hardReset (s : State) : State :=
  { State.reset with
    mem := s.mem
    freeIndex := s.freeIndex
    pending := s.pending
    pins := { s.pins with resetAsserted := true }
    path.waiting := inHand s ++ s.path.waiting }

/-- Assertion of the reset line, or power-up (R178). -/
def execHardReset (s : State) : Host.Outcome State Fault Refusal := .next (hardReset s)

/-- Deassertion of the reset line: the part begins, and an access that waited is taken (R178). -/
def execResetDeasserted (s : State) : Host.Outcome State Fault Refusal :=
  .next (if s.pins.resetAsserted then happen id { s with pins.resetAsserted := false } else s)

end Sys2Proof.Machine
end

