-- ==== Sys2Proof/Machine/Timers.lean ====
section
/-! DEFINITION. The meanings of the timer expiries, and TAKE_RESULT. An expiry acts where its timer runs (log entry
3). -/

namespace Sys2Proof.Machine

/-- The settle timer expires: the port is SETTLED (R47). -/
def settleExpired (s : State) : State :=
  match s.opt.settleTimer with
  | some _ => advance (settlingTest { s with opt.settled := true, opt.settleTimer := none })
  | none => s

/-- SETTLE_TIMER_EXPIRY (R47, R51). -/
def execSettleTimerExpiry (s : State) : Host.Outcome State Fault Refusal := .next (happen settleExpired s)

/-- The warm-up timer expires: its source is WARM (R49). -/
def warmUpExpired (s : State) : State :=
  match s.opt.warmUpTimer with
  | some t => advance (settlingTest { s with
      opt.warm := sourceSet s.opt.warm t.source .warm
      opt.warmUpTimer := none })
  | none => s

/-- WARM_UP_EXPIRY (R49, R51). -/
def execWarmUpExpiry (s : State) : Host.Outcome State Fault Refusal := .next (happen warmUpExpired s)

/-- The warm-hold timer expires: its source turns COLD (R52). -/
def warmHoldExpired (s : State) : State :=
  match s.opt.warmHoldTimer with
  | some t => coldSource t.source s
  | none => s

/-- WARM_HOLD_EXPIRY (R52). -/
def execWarmHoldExpiry (s : State) : Host.Outcome State Fault Refusal := .next (happen warmHoldExpired s)

/-- A slot in RESTING returns to FIRING (R60). -/
def endRest (s : State) : State :=
  match s.seq.acq with
  | some l => if l.phase = .resting then setPhase .firing s else s
  | none => s

/-- The duty period ends: the counts clear, a new period begins, RESTING is left, and firing is tested (R59, R60). -/
def dutyEnded (s : State) : State :=
  match s.opt.dutyTimer with
  | some _ => testFire (endRest (report { s with
      opt.dutyCount := ⟨0, 0, 0⟩
      opt.dutyTimer := some (headerDutyPeriod (activeHeader s)) }))
  | none => s

/-- DUTY_PERIOD_END (R59). -/
def execDutyPeriodEnd (s : State) : Host.Outcome State Fault Refusal := .next (happen dutyEnded s)

/-- The shot-spacing timer expires, and firing is tested (R56, R58). -/
def spacingExpired (s : State) : State :=
  match s.opt.spacingTimer with
  | some _ => testFire (spacingElapsed s)
  | none => s

/-- SHOT_SPACING_EXPIRY (R56). -/
def execShotSpacingExpiry (s : State) : Host.Outcome State Fault Refusal := .next (happen spacingExpired s)

/-- The deadline of the outstanding shot with this sequence expires, and the lanes go on (R76). -/
def deadlineTaken (sequence : BitVec 16) (s : State) : State := advance (deadlineExpired sequence s)

/-- SHOT_DEADLINE_EXPIRY (R76; log entry 36). -/
def execShotDeadlineExpiry (sequence : BitVec 16) (s : State) : Host.Outcome State Fault Refusal :=
  .next (happen (deadlineTaken sequence) s)

/-- The Verdict Unit takes the result of the slot in POSTING, and the lanes go on (R33, R136). -/
def resultTaken (s : State) : State := advance (takePosted s)

/-- TAKE_RESULT (R136). -/
def execTakeResult (s : State) : Host.Outcome State Fault Refusal := .next (happen resultTaken s)

end Sys2Proof.Machine
end

