-- ==== Sys2Proof/Machine/Upstream.lean ====
section
/-! DEFINITION. The meanings of the other upstream accesses (R167): each is presented to the Memory Path Unit, which
classes it by its address. -/

namespace Sys2Proof.Machine

/-- A write to the plan areas (R1). -/
def execPlanWrite (offset : BitVec 12) (be : Enables) (data : Word) (s : State) : Host.Outcome State Fault Refusal :=
  .next (present (pageWrite offset be data) s)

/-- A write of the taken index word (R151). -/
def execTakenIndexWrite (be : Enables) (data : Word) (s : State) : Host.Outcome State Fault Refusal :=
  .next (present (pageWrite 0x884#12 be data) s)

/-- A write to trace memory or a plain word of the control page (R168, R170). -/
def execUpstreamMemoryWrite (addr : Addr) (be : Enables) (data : Word) (s : State) :
    Host.Outcome State Fault Refusal :=
  .next (present ⟨addr, true, be, data⟩ s)

/-- A read of trace memory or the control page (R168). -/
def execUpstreamMemoryRead (addr : Addr) (be : Enables) (s : State) : Host.Outcome State Fault Refusal :=
  .next (present ⟨addr, false, be, 0#32⟩ s)

/-- A write to a part-written area (R167). -/
def execPartWrittenAreaWrite (offset : BitVec 12) (be : Enables) (data : Word) (s : State) :
    Host.Outcome State Fault Refusal :=
  .next (present (pageWrite offset be data) s)

/-- An access to a stray address (R167). -/
def execStrayAccess (addr : Addr) (write : Bool) (be : Enables) (data : Word) (s : State) :
    Host.Outcome State Fault Refusal :=
  .next (present ⟨addr, write, be, if write then data else 0#32⟩ s)

/-- The byte address in the shot window. -/
def shotAddress (offset : BitVec 16) : Addr := 0x1000000#25 + offset.setWidth 25

/-- The byte address in the view window. -/
def viewAddress (offset : BitVec 16) : Addr := 0x1800000#25 + offset.setWidth 25

/-- A read of the shot window (R167). -/
def execShotWindowRead (offset : BitVec 16) (be : Enables) (s : State) : Host.Outcome State Fault Refusal :=
  .next (present ⟨shotAddress offset, false, be, 0#32⟩ s)

/-- A write to the view window (R165). -/
def execViewWindowWrite (offset : BitVec 16) (be : Enables) (data : Word) (s : State) :
    Host.Outcome State Fault Refusal :=
  .next (present ⟨viewAddress offset, true, be, data⟩ s)

/-- A full-word write of shot-window word 0 (R68). -/
def execHeaderWrite (data : Word) (s : State) : Host.Outcome State Fault Refusal :=
  .next (present ⟨shotAddress 0#16, true, 0xF#4, data⟩ s)

/-- A full-word write of another shot-window word (R70, R71). -/
def execWordWrite (offset : BitVec 14) (data : Word) (s : State) : Host.Outcome State Fault Refusal :=
  .next (present ⟨shotAddress (offset ++ 0#2), true, 0xF#4, data⟩ s)

/-- A shot-window write with a byte enable clear (R67). -/
def execPartialWrite (offset : BitVec 14) (be : Enables) (data : Word) (s : State) :
    Host.Outcome State Fault Refusal :=
  .next (present ⟨shotAddress (offset ++ 0#2), true, be, data⟩ s)

/-- A read of the view window (R162). -/
def execViewRead (offset : BitVec 16) (be : Enables) (s : State) : Host.Outcome State Fault Refusal :=
  .next (present ⟨viewAddress offset, false, be, 0#32⟩ s)

end Sys2Proof.Machine
end

