-- ==== Sys2Proof/Machine/Dispatch.lean ====
section
/-! DEFINITION. The dispatch: one arm for each command of spec/opcode_table.json. -/

namespace Sys2Proof.Machine

def exec (i : Instr) (s : State) : Host.Outcome State Fault Refusal :=
  match i with
  | .enable operand spare tag => Sys2Proof.Machine.execEnable operand spare tag s
  | .disable operand spare tag => Sys2Proof.Machine.execDisable operand spare tag s
  | .start operand spare tag => Sys2Proof.Machine.execStart operand spare tag s
  | .stop operand spare tag => Sys2Proof.Machine.execStop operand spare tag s
  | .resume operand spare tag => Sys2Proof.Machine.execResume operand spare tag s
  | .restart operand spare tag => Sys2Proof.Machine.execRestart operand spare tag s
  | .release operand spare tag => Sys2Proof.Machine.execRelease operand spare tag s
  | .trigger operand spare tag => Sys2Proof.Machine.execTrigger operand spare tag s
  | .reinit operand spare tag => Sys2Proof.Machine.execReinit operand spare tag s
  | .adopt operand spare tag => Sys2Proof.Machine.execAdopt operand spare tag s
  | .compare operand spare tag => Sys2Proof.Machine.execCompare operand spare tag s
  | .markBased operand spare tag => Sys2Proof.Machine.execMarkBased operand spare tag s
  | .clearConditions operand spare tag => Sys2Proof.Machine.execClearConditions operand spare tag s
  | .ackNotices operand spare tag => Sys2Proof.Machine.execAckNotices operand spare tag s
  | .unknownCode data => Sys2Proof.Machine.execUnknownCode data s
  | .refusedForm be data => Sys2Proof.Machine.execRefusedForm be data s
  | .planWrite offset be data => Sys2Proof.Machine.execPlanWrite offset be data s
  | .takenIndexWrite be data => Sys2Proof.Machine.execTakenIndexWrite be data s
  | .upstreamMemoryWrite addr be data => Sys2Proof.Machine.execUpstreamMemoryWrite addr be data s
  | .upstreamMemoryRead addr be => Sys2Proof.Machine.execUpstreamMemoryRead addr be s
  | .partWrittenAreaWrite offset be data => Sys2Proof.Machine.execPartWrittenAreaWrite offset be data s
  | .strayAccess addr write be data => Sys2Proof.Machine.execStrayAccess addr write be data s
  | .shotWindowRead offset be => Sys2Proof.Machine.execShotWindowRead offset be s
  | .viewWindowWrite offset be data => Sys2Proof.Machine.execViewWindowWrite offset be data s
  | .headerWrite data => Sys2Proof.Machine.execHeaderWrite data s
  | .wordWrite offset data => Sys2Proof.Machine.execWordWrite offset data s
  | .partialWrite offset be data => Sys2Proof.Machine.execPartialWrite offset be data s
  | .viewRead offset be => Sys2Proof.Machine.execViewRead offset be s
  | .passGrant => Sys2Proof.Machine.execPassGrant s
  | .accumGrant => Sys2Proof.Machine.execAccumGrant s
  | .traceGrant => Sys2Proof.Machine.execTraceGrant s
  | .viewFetchGrant => Sys2Proof.Machine.execViewFetchGrant s
  | .postGrant => Sys2Proof.Machine.execPostGrant s
  | .quietHoursGateAsserted => Sys2Proof.Machine.execQuietHoursGateAsserted s
  | .quietHoursGateDeasserted => Sys2Proof.Machine.execQuietHoursGateDeasserted s
  | .liveLightGuardAsserted => Sys2Proof.Machine.execLiveLightGuardAsserted s
  | .liveLightGuardDeasserted => Sys2Proof.Machine.execLiveLightGuardDeasserted s
  | .triggerEdge sense => Sys2Proof.Machine.execTriggerEdge sense s
  | .hardReset => Sys2Proof.Machine.execHardReset s
  | .resetDeasserted => Sys2Proof.Machine.execResetDeasserted s
  | .settleTimerExpiry => Sys2Proof.Machine.execSettleTimerExpiry s
  | .warmUpExpiry => Sys2Proof.Machine.execWarmUpExpiry s
  | .warmHoldExpiry => Sys2Proof.Machine.execWarmHoldExpiry s
  | .dutyPeriodEnd => Sys2Proof.Machine.execDutyPeriodEnd s
  | .shotSpacingExpiry => Sys2Proof.Machine.execShotSpacingExpiry s
  | .shotDeadlineExpiry sequence => Sys2Proof.Machine.execShotDeadlineExpiry sequence s
  | .takeResult => Sys2Proof.Machine.execTakeResult s

end Sys2Proof.Machine
end

