-- ==== Sys2Proof/WellFormed.lean ====
section
/-! DEFINITION. Which operands make a command of its row: the address classes of R167 and the byte enables of R18, R67.
The check is about the operands alone. -/

namespace Sys2Proof

/-- A control-page offset of the plan areas: header, zone table, slot records (R1). -/
def planOffset (offset : Nat) : Bool := offset < 0x880

/-- A control-page offset of the part-written areas (R1, R167). -/
def partWrittenOffset (offset : Nat) : Bool := 0x900 ≤ offset && offset < 0xCE0

/-- A stray address (R167). -/
def strayAddress (a : Nat) : Bool :=
  (0x1010000 ≤ a && a < 0x1800000) || 0x1810000 ≤ a

/-- A word whose upstream write is neither a plan write, a command, a taken index write nor part-written: trace memory
below the control page, or a plain word of the page (R1, R167). -/
def plainWriteAddress (a : Nat) : Bool :=
  a < 0xFFF000 || (0xFFF888 ≤ a && a < 0x1000000 && !partWrittenOffset (a % 0x1000))

/-- A command code that the table of 12.3 names. -/
def namedCode (c : BitVec 8) : Bool := 0x01#8 ≤ c && c ≤ 0x0E#8

/-- The operands make a command of the constructor's row. -/
def Instr.wf : Instr → Bool
  | .enable _ _ _ => true
  | .disable _ _ _ => true
  | .start _ _ _ => true
  | .stop _ _ _ => true
  | .resume _ _ _ => true
  | .restart _ _ _ => true
  | .release _ _ _ => true
  | .trigger _ _ _ => true
  | .reinit _ _ _ => true
  | .adopt _ _ _ => true
  | .compare _ _ _ => true
  | .markBased _ _ _ => true
  | .clearConditions _ _ _ => true
  | .ackNotices _ _ _ => true
  | .unknownCode data => !namedCode (data.extractLsb' 0 8)
  | .refusedForm be _ => be != 0xF#4
  | .planWrite offset _ _ => planOffset offset.toNat
  | .takenIndexWrite _ _ => true
  | .upstreamMemoryWrite addr _ _ => plainWriteAddress addr.toNat
  | .upstreamMemoryRead addr _ => addr.toNat < 0x1000000
  | .partWrittenAreaWrite offset _ _ => partWrittenOffset offset.toNat
  | .strayAccess addr _ _ _ => strayAddress addr.toNat
  | .shotWindowRead _ _ => true
  | .viewWindowWrite _ _ _ => true
  | .headerWrite _ => true
  | .wordWrite offset _ => offset != 0#14
  | .partialWrite _ be _ => be != 0xF#4
  | .viewRead _ _ => true
  | .passGrant => true
  | .accumGrant => true
  | .traceGrant => true
  | .viewFetchGrant => true
  | .postGrant => true
  | .quietHoursGateAsserted => true
  | .quietHoursGateDeasserted => true
  | .liveLightGuardAsserted => true
  | .liveLightGuardDeasserted => true
  | .triggerEdge _ => true
  | .hardReset => true
  | .resetDeasserted => true
  | .settleTimerExpiry => true
  | .warmUpExpiry => true
  | .warmHoldExpiry => true
  | .dutyPeriodEnd => true
  | .shotSpacingExpiry => true
  | .shotDeadlineExpiry _ => true
  | .takeResult => true

end Sys2Proof
end

