-- ==== Sys2Proof/Safety.lean ====
section
/-! DEFINITION. The words the statements are made in: when a command or an event is acted on by itself, what the part
has settled to, and the properties every step keeps. -/

namespace Sys2Proof.Machine

/-! ### Readings of a state -/

/-- Every byte of memory reads as before. -/
def SameMemory (s t : State) : Prop := ∀ a, readByte t.mem a = readByte s.mem a

/-- The warm state of a source by number; source 3 does not exist and is COLD. -/
def sourceState (s : State) (n : Nat) : WarmState :=
  match n with
  | 0 => s.opt.warm.s0
  | 1 => s.opt.warm.s1
  | 2 => s.opt.warm.s2
  | _ => .cold

/-! ### When an access or an event is acted on by itself -/

/-- The upstream bus takes an access as it is presented: no PASS request stands, no view read is held, reset is not
asserted, and no access waits before it (R162, R168, R178). -/
structure BusReady (s : State) : Prop where
  noPass : s.path.pass = none
  noView : s.trace.view = none
  running : s.pins.resetAsserted = false
  noWaiting : s.path.waiting = []

/-- An event is acted on, and frees no access that waits: reset is not asserted and no access waits (R178). -/
structure EventReady (s : State) : Prop where
  running : s.pins.resetAsserted = false
  noWaiting : s.path.waiting = []

/-- A background operation, if there is one, needs a word of memory for its next point (R119, R128). -/
def TraceSettled (s : State) : Prop := ∀ b, s.trace.bg = some b → traceNeed b ≠ .nothing

/-- The Trace Engine has nothing to do without a grant: an operation that goes on needs a word, and no held view read
waits for a point that is done (R163). -/
def TraceIdle (s : State) : Prop :=
  (∀ b, runningOperation s = some b → traceNeed b ≠ .nothing) ∧
    (runningOperation s = none → ∀ a p, s.trace.view ≠ some ⟨a, .waitPoint p⟩)

/-- Nothing more happens without a further event: no slot moves, no slot is offered the lane, no sweep ends, and the
Trace Engine waits for a grant. -/
def Settled (s : State) : Prop := laneCalls s = false ∧ sweepOver s = false ∧ TraceIdle s

/-- No region of the plan would apply now: hold is set, or nothing is dirty and no ring pair is pending (R8, R11,
R13). -/
def PlanSettled (s : State) : Prop :=
  holdFlag s = true ∨
    (headerDue s = false ∧ s.plan.zonesDirty = false ∧ ∀ k : SlotIx, s.plan.recordDirty[k] = false)

/-! ### The write of a command, and the state an access leaves -/

/-- The row of a command. -/
def commandInstr : CommandName → BitVec 8 → BitVec 8 → BitVec 8 → Instr
  | .enable => .enable
  | .disable => .disable
  | .start => .start
  | .stop => .stop
  | .resume => .resume
  | .restart => .restart
  | .release => .release
  | .trigger => .trigger
  | .reinit => .reinit
  | .adopt => .adopt
  | .compare => .compare
  | .markBased => .markBased
  | .clearConditions => .clearConditions
  | .ackNotices => .ackNotices

/-- The row of a requester's grant (R173). -/
def grantOf : Requester → Instr
  | .pass => .passGrant
  | .viewFetch => .viewFetchGrant
  | .post => .postGrant
  | .accum => .accumGrant
  | .trace => .traceGrant

/-- `u` with the command's outcome recorded, its write standing as the PASS request, and the status image brought up to
date (R18, R20, R156). -/
def answered (c : CommandName) (operand spare tag : BitVec 8) (o : CmdOutcome) (u : State) : State :=
  report (passAccess (commandWrite c operand spare tag) (recordOutcome c.code tag o u))

/-- The outcome the tables of the spec give a command, by the sequencer state and what its owner tests (2.7, R19, R23
to R27, R40 to R44, R105, R122, R127, R134, R153). -/
def tableOutcome (c : CommandName) (operand : BitVec 8) (s : State) : CmdOutcome :=
  match c with
  | .enable => if s.seq.state = .off then (if s.plan.ringFault then .refusedOperand else .accepted) else .refusedState
  | .disable => .accepted
  | .start =>
    if s.seq.state = .idle then (if deferring s then .refusedBusy else .accepted)
    else if s.seq.state = .off ∨ s.seq.state = .halted then .refusedState
    else .refusedBusy
  | .stop => if s.seq.state = .off then .refusedState else .accepted
  | .resume => if s.seq.state = .halted then .accepted else .refusedState
  | .restart =>
    if s.seq.state = .sweeping ∨ s.seq.state = .waiting ∨ s.seq.state = .paused then .accepted else .refusedState
  | .release => if s.seq.state = .paused then .accepted else .refusedState
  | .trigger =>
    if s.seq.state = .waiting ∧ headerMode (activeHeader s) = .triggered ∧ s.pins.gate = true then .accepted
    else .refusedState
  | .reinit => .accepted
  | .adopt =>
    if h : operand.toNat < 24 then
      if s.seq.state ≠ .idle ∧ s.seq.state ≠ .halted then .refusedState
      else if s.trace.bg ≠ none then .refusedBusy
      else if s.accum.ready[operand.toNat] then .accepted
      else .refusedNotReady
    else .refusedOperand
  | .compare =>
    if h : operand.toNat < 24 then
      if s.seq.state ≠ .halted then .refusedState
      else if s.trace.bg ≠ none then .refusedBusy
      else if recInjected s.plan.activeCopy.records[operand.toNat] = 0 then .refusedOperand
      else .accepted
    else .refusedOperand
  | .markBased =>
    if h : operand.toNat < 24 then
      if holdsLane s ⟨operand.toNat, h⟩ || adoptOverlaps s ⟨operand.toNat, h⟩ then .refusedBusy else .accepted
    else .refusedOperand
  | .clearConditions => .accepted
  | .ackNotices => .accepted

/-! ### What a sweep's start and a sweep's end leave -/

/-- Slot 0 can take the acquisition lane and stays in SETTLING there: no edit waits for the sweep's start, the active
ring passed its check, slot 0 is enabled and passes the plan check, and its source has yet to warm up (R14, R16, R30,
R51). -/
structure FirstSlotSettles (s : State) : Prop where
  plan : PlanSettled s
  ring : s.plan.ringFault = false
  enabled : recEnable (activeRecord s 0) = true
  check : planCheck s 0 = true
  cold : warmOf s (recSource (activeRecord s 0)) ≠ .warm
  acq : s.seq.acq = none
  comp : s.seq.comp = none
  trace : TraceSettled s

/-- A sweep has started from `s`, and its first slot, slot 0, stands in SETTLING in `t` (R28, R30, R47, R50, R58, R79,
R91, R92). -/
structure SweepBegun (s t : State) : Prop where
  state : t.seq.state = .sweeping
  number : t.seq.sweepNumber = s.seq.sweepNumber + 1
  mode : t.seq.mode = headerMode (activeHeader s)
  acq : t.seq.acq = some ⟨0, .settling⟩
  comp : t.seq.comp = none
  cursor : t.seq.cursor = 1
  marks : t.seq.orderEnded = false ∧ t.seq.quietEnd = false ∧ t.seq.entered = true
  outcomes : t.seq.outcomes = (Vector.replicate 24 SlotOutcome.notInSweep).set 0 .notRun
  counts : t.findings.posted = 0 ∧ t.findings.deferred = 0
  inputs : t.verdict.inputs = Vector.replicate 24 none
  run : t.intake.accepted = s.intake.accepted.set 0 0 ∧ t.intake.rejected = s.intake.rejected.set 0 0 ∧
    t.intake.lost = s.intake.lost.set 0 0 ∧ t.intake.lastReject = s.intake.lastReject.set 0 .none ∧
    t.intake.failures = 0
  flags : t.accum.ready = s.accum.ready.set 0 false ∧ t.accum.clippedContent = s.accum.clippedContent.set 0 false ∧
    t.trace.seen = s.trace.seen.set 0 CondSet.empty ∧ t.trace.clipNote = s.trace.clipNote.set 0 false
  guard : t.path.guards =
    s.path.guards ++ [⟨.run, 0, recAccBase (activeRecord s 0), recPoints (activeRecord s 0)⟩]
  port : t.opt.port = recPort (activeRecord s 0)
  warming : sourceState t (recSource (activeRecord s 0)).toNat = .warming
  shots : t.opt.nextSeq = 0 ∧ t.opt.spacingTimer = none ∧ t.opt.dutyCount = s.opt.dutyCount
  plans : t.plan.activeCopy = s.plan.activeCopy ∧ t.plan.pendingCopy = s.plan.pendingCopy
  table : t.verdict.table = s.verdict.table
  memory : SameMemory s t
  pins : t.pins = s.pins

/-- The ring pair that a sweep's start is left with fails the header check: under hold the fault mark stands, and
without it a pending pair, still presented, does not lie in trace memory below the control page (R13, R14, R29). Nothing
else of the header waits, no slot record does, and both lanes are empty. -/
structure RingRefused (s : State) : Prop where
  fault : (holdFlag s = true ∧ s.plan.ringFault = true) ∨
    (holdFlag s = false ∧ s.plan.ringPending = true ∧
      headerRingWritten s.plan.pendingCopy.header ≠ headerRingWritten (activeHeader s) ∧
      0xFFF000 < headerRingBase s.plan.pendingCopy.header + 16 * headerRingCapacity s.plan.pendingCopy.header)
  header : ∀ i : Fin 32, i ≠ 6 → i ≠ 7 → s.plan.pendingCopy.header[i] = (activeHeader s)[i]
  records : ∀ k : SlotIx, s.plan.recordDirty[k] = false
  acq : s.seq.acq = none
  comp : s.seq.comp = none
  trace : TraceSettled s

/-- A sweep has started from `s` and ended at once with reason HEADER FAULT, in HALTED: no slot was offered, the slots
of the order take NOT RUN, and the summary waits with its notice request (R28, R29, R36, R37). -/
structure HeaderFaulted (s t : State) : Prop where
  state : t.seq.state = .halted
  number : t.seq.sweepNumber = s.seq.sweepNumber + 1
  lanes : t.seq.acq = none ∧ t.seq.comp = none
  outcomes : ∀ k : SlotIx, t.seq.outcomes[k] = if k ∈ listedFrom s 0 then .notRun else .notInSweep
  summary : ∃ sm, .summary sm true ∈ t.findings.queue ∧ sm.sweep = s.seq.sweepNumber + 1 ∧ sm.mode = t.seq.mode ∧
    sm.reason = .headerFault ∧ sm.empty = true ∧ sm.posted = 0 ∧ sm.deferred = 0 ∧ sm.outcomes = t.seq.outcomes
  fault : t.plan.ringFault = true
  ring : headerRingWritten (activeHeader t) = headerRingWritten (activeHeader s)
  inputs : t.verdict.inputs = Vector.replicate 24 none
  table : t.verdict.table = s.verdict.table
  memory : SameMemory s t

/-- The outcomes that a sweep's end other than COMPLETE leaves: the slots from the cursor up to the first slot whose
active enable is 0 take NOT RUN (R36 step 1). -/
def listedOutcomes (s : State) (k : SlotIx) : SlotOutcome :=
  if k ∈ listedFrom s s.seq.cursor then .notRun else s.seq.outcomes[k]

/-- Slot `n` can take the acquisition lane and stays in SETTLING there: no edit of its record waits, it is enabled and
passes the plan check, and the switch has to settle or its source has yet to warm up (R16, R30, R47, R51). -/
structure NextSlotSettles (n : SlotIx) (s : State) : Prop where
  record : holdFlag s = true ∨ s.plan.recordDirty[n] = false
  enabled : recEnable (activeRecord s n) = true
  check : planCheck s n = true
  unsettled : recPort (activeRecord s n) ≠ s.opt.port ∨ s.opt.settled = false ∨
    warmOf s (recSource (activeRecord s n)) ≠ .warm

/-- The partner field of slot `k` names a slot and is not honoured: that slot is `k` itself, or names another, or has
another span port or the same source (R17). -/
def PartnerIgnored (s : State) (k : SlotIx) : Prop :=
  ∃ p, recPartner (activeRecord s k) = some p ∧
    ¬ (p ≠ k ∧ recPartner (activeRecord s p) = some k ∧ recPort (activeRecord s k) = recPort (activeRecord s p) ∧
      recSource (activeRecord s k) ≠ recSource (activeRecord s p))

/-- The sweep of `s` has ended with a reason: both lanes are empty, the slots not yet offered are
listed, the summary waits in the record queue with its notice request, and memory and the sweep number stand (R36, R37,
R39). -/
structure SweepEnded (reason : EndReason) (s t : State) : Prop where
  lanes : t.seq.acq = none ∧ t.seq.comp = none
  outcomes : ∀ k : SlotIx, t.seq.outcomes[k] = listedOutcomes s k
  summary : ∃ sm, .summary sm true ∈ t.findings.queue ∧ sm.sweep = s.seq.sweepNumber ∧ sm.mode = s.seq.mode ∧
    sm.reason = reason ∧ sm.empty = !s.seq.entered ∧ sm.outcomes = t.seq.outcomes
  number : t.seq.sweepNumber = s.seq.sweepNumber
  shots : s.seq.acq ≠ none →
    t.intake.outstanding = [] ∧ t.intake.framing = none ∧ t.accum.queue = [] ∧ t.accum.add = none
  memory : SameMemory s t

/-! ### Firing -/

/-- The conditions of R56 that the blocks hold for slot `k` in FIRING: the shots outstanding, the buffers and the
committed count; the spacing, the duty limit and the levels of the two lines apart. -/
structure FireReady (k : SlotIx) (s : State) : Prop where
  firing : s.seq.state = .sweeping ∧ s.seq.acq = some ⟨k, .firing⟩
  room : s.intake.outstanding.length < 2
  buffer : s.intake.buffer0 = .free ∨ s.intake.buffer1 = .free
  wanted : s.intake.accepted[k] + s.accum.queue.length + (if s.accum.add.isSome then 1 else 0) +
    s.intake.outstanding.length < recTarget (activeRecord s k)

/-- The duty count of slot `k`'s source is below its duty limit (R56, R59). -/
def DutyLeft (k : SlotIx) (s : State) : Prop :=
  sourceGet s.opt.dutyCount (recSource (activeRecord s k)) 0 <
    headerDutyLimit (activeHeader s) (recSource (activeRecord s k))

/-- Slot `k` fires wherever the firing conditions are tested, or rests where the duty limit alone stops it: conditions
1 to 5 and 7 of R56 hold. -/
def OnlyDutyStops (k : SlotIx) (s : State) : Prop :=
  FireReady k s ∧ s.opt.spacingTimer = none ∧ s.pins.gate = true ∧ s.pins.liveLight = false

/-- Slot `k` has fired a shot: it is outstanding with its deadline and the buffer reserved, the counts and timers have
moved, and the lines carry the pulse code and the tag (R57, R74, R75). -/
structure ShotFired (k : SlotIx) (s t : State) : Prop where
  outstanding : ∃ i, t.intake.outstanding = s.intake.outstanding ++
      [⟨s.opt.nextSeq, headerShotTimeout (activeHeader s), i⟩] ∧
    i = (if s.intake.buffer0 = .free then BufIx.b0 else .b1) ∧
    t.intake.buffer0 = (if i = .b0 then .reserved else s.intake.buffer0) ∧
    t.intake.buffer1 = (if i = .b1 then .reserved else s.intake.buffer1)
  duty : t.opt.dutyCount = sourceSet s.opt.dutyCount (recSource (activeRecord s k))
    (sourceGet s.opt.dutyCount (recSource (activeRecord s k)) 0 + 1)
  sequence : t.opt.nextSeq = s.opt.nextSeq + 1
  spacing : t.opt.spacingTimer = some (recSpacing (activeRecord s k))
  testActive : t.opt.testActive = (s.opt.testActive || (headerFirstFire (activeHeader s) && !s.opt.fired))
  lines : t.opt.pulseWidth = recPulse (activeRecord s k) ∧ t.opt.tagSlot.toNat = k.val ∧
    t.opt.tagSeq = s.opt.nextSeq ∧ t.opt.strobes = s.opt.strobes + 1
  kept : t.plan = s.plan ∧ t.seq = s.seq ∧ t.accum = s.accum ∧ t.trace = s.trace ∧ t.verdict = s.verdict ∧
    t.findings = s.findings ∧ t.path = s.path ∧ t.mem = s.mem ∧ t.opt.port = s.opt.port ∧ t.opt.warm = s.opt.warm ∧
    t.intake.accepted = s.intake.accepted ∧ t.intake.framing = s.intake.framing

/-! ### Records and runs -/

/-- The record in progress of slot `k` is gone, rejected for a reason: its shot is off the outstanding list, its buffer
FREE, and the counts raised (R73). -/
def rejected (reason : RejectReason) (k : SlotIx) (f : Frame) (s : State) : State :=
  setBuffer f.buffer .free { s with
    intake.outstanding := s.intake.outstanding.filter fun x => x.sequence != f.sequence
    intake.framing := none
    intake.rejected := s.intake.rejected.set k (countUp s.intake.rejected[k])
    intake.lastReject := s.intake.lastReject.set k reason
    intake.failures := s.intake.failures + 1 }

/-- The shot `x` of slot `k` is lost: it is off the outstanding list with the record in progress that was its own, its
buffer FREE, and the counts raised (R76). -/
def shotLost (k : SlotIx) (x : Shot) (s : State) : State :=
  setBuffer x.buffer .free { s with
    intake.outstanding := s.intake.outstanding.filter fun y => y.sequence != x.sequence
    intake.framing := s.intake.framing.filter fun f => f.sequence != x.sequence
    intake.lost := s.intake.lost.set k (countUp s.intake.lost[k])
    intake.failures := s.intake.failures + 1 }

/-- A record of slot `k` framed into the buffer of shot `x` (R69). -/
def framed (k : SlotIx) (x : Shot) (header : Word) (s : State) : State :=
  setBuffer x.buffer (.filling ⟨header, []⟩) { s with
    intake.framing := some
      { buffer := x.buffer, sequence := x.sequence, next := 1, check := recPoints (activeRecord s k) / 2 + 1,
        crc := crcWord 0xFFFF header } }

/-- Nothing fires at a test of the firing conditions: the shot spacing still runs (R56). -/
def Spaced (s : State) : Prop := s.opt.spacingTimer ≠ none

/-- The run of the slot in the acquisition lane has ended, and the slot waits there with what it holds while the
comparison lane is occupied (R31, R32, R58, R80, R93). -/
structure RunEnded (k : SlotIx) (held : Held) (s t : State) : Prop where
  lane : t.seq.acq = some ⟨k, .awaiting held⟩ ∧ t.seq.comp = s.seq.comp ∧ t.seq.state = s.seq.state
  shots : t.intake.outstanding = [] ∧ t.intake.buffer0 = .free ∧ t.intake.buffer1 = .free ∧ t.intake.framing = none
  adds : t.accum.queue = [] ∧ t.accum.add = none
  spacing : t.opt.spacingTimer = none
  kept : t.intake.accepted = s.intake.accepted ∧ t.accum.ready = s.accum.ready ∧ t.path.guards = s.path.guards ∧
    t.seq.outcomes = s.seq.outcomes ∧ t.plan = s.plan ∧ t.verdict = s.verdict ∧ t.findings = s.findings ∧
    t.trace = s.trace ∧ t.mem = s.mem ∧ t.opt = { s.opt with spacingTimer := none }

/-! ### Verdicts posted and results taken -/

/-- The posting decision taken on verdict `v` of slot `k` in `s`, and what it leaves of the findings block and the
verdict table in `t`: a finding that is due is queued with the finding sequence where the ring has room, and deferred
with the unposted and ring-full flags set where it has none; one that is not due clears the unposted flag (R143, R144,
R145, R149). That a queued finding takes the place of an earlier finding in flight and leaves the unposted flag to its
ring write is the model's reading (log entries 11, 42). -/
def VerdictPosted (k : SlotIx) (v : Verdict) (s t : State) : Prop :=
  let e := s.verdict.table[k]
  let was := match e.inFlight with | some f => (f.newKind, f.location) | none => (e.kind, e.location)
  let due := recEvery (activeRecord s k) = true ∨ was.1 ≠ v.kind ∨
    ((v.kind = .reflection ∨ v.kind = .loss ∨ v.kind = .bend ∨ v.kind = .brk ∨ v.kind = .anomaly) ∧
      (v.location + recRelocateTolerance (activeRecord s k) < was.2 ∨
        was.2 + recRelocateTolerance (activeRecord s k) < v.location))
  let room := occupancy s + findingsWaiting s < ringCapacity s
  (due → room → ∃ f : Finding, f.sequence = s.findings.seq ∧ f.slot = k ∧ f.newKind = v.kind ∧ f.prevKind = was.1 ∧
    f.sweep = v.sweep ∧ f.location = v.location ∧ f.magnitude = v.magnitude ∧ f.port = recPort (activeRecord s k) ∧
    f.source = recSource (activeRecord s k) ∧ f.paired = v.paired ∧ f.reflective = v.reflective ∧
    f.preceded = v.preceded ∧ f.masked = v.masked ∧ f.injected = v.injected ∧ f.reason = v.reason ∧
    t.findings = { s.findings with
      seq := s.findings.seq + 1
      queue := s.findings.queue ++ [.finding f]
      posted := if v.injected then s.findings.posted else s.findings.posted + 1 } ∧
    t.verdict = { s.verdict with table := s.verdict.table.set k { e with inFlight := some f } }) ∧
  (due → ¬ room →
    t.findings = { s.findings with
      ringFull := true
      deferred := if v.injected then s.findings.deferred else s.findings.deferred + 1 } ∧
    t.verdict = { s.verdict with table := s.verdict.table.set k { e with unposted := true } }) ∧
  (¬ due → t.findings = s.findings ∧
    t.verdict = { s.verdict with table := s.verdict.table.set k { e with unposted := false } })

/-- A verdict posted where there is one; nothing posted where there is none. -/
def PostedIf (k : SlotIx) (v : Option Verdict) (s t : State) : Prop :=
  match v with
  | some w => VerdictPosted k w s t
  | none => t.findings = s.findings ∧ t.verdict = s.verdict

/-- The verdict of a result by itself: its own kind, LOSS for a LOSS CANDIDATE, with the paired flag clear (R138, R142,
R144). -/
def unpairedVerdict (r : Result) : Verdict where
  kind := if r.kind = .lossCandidate then .loss else r.kind
  location := r.location
  magnitude := r.magnitude
  paired := false
  reflective := r.reflective
  preceded := r.preceded
  masked := r.masked.saturated || r.masked.gap || r.masked.clipped
  injected := r.injected
  reason := r.reason
  sweep := r.sweep

/-- The verdict of a pair input resolved as a kind in a sweep, with the paired flag set (R140, R144). -/
def pairedVerdict (x : PairInput) (sweep : BitVec 32) (kind : Kind) : Verdict where
  kind := kind
  location := x.location
  magnitude := x.magnitude
  paired := true
  reflective := false
  preceded := false
  masked := x.masked
  injected := false
  reason := .none
  sweep := sweep

/-- The outcome of a slot whose result is taken (R33). -/
def takenOutcome (r : Result) : SlotOutcome :=
  if r.kind = .live then .live else if r.kind = .faulted then .faulted else .done

/-- The result `r` of slot `k` is off the comparison lane: its outcome is recorded and its guard lifted, and only the
verdicts and the findings block change besides (R33, R92, R136). -/
structure ResultOff (k : SlotIx) (r : Result) (s t : State) : Prop where
  seq : t.seq = { s.seq with comp := none, outcomes := s.seq.outcomes.set k (takenOutcome r) }
  path : t.path = { s.path with guards := s.path.guards.filter fun g => !(g.holder = .run && g.slot = k) }
  kept : t.plan = s.plan ∧ t.opt = s.opt ∧ t.intake = s.intake ∧ t.accum = s.accum ∧ t.trace = s.trace ∧
    t.mem = s.mem ∧ t.pins = s.pins

/-- A result without a comparison: LIVE, UNBASED or FAULTED (R32, R118). -/
def plainOf (kind : Kind) (reason : FaultReason) (sweep : BitVec 32) : Result :=
  ⟨kind, 0, 0, false, false, CondSet.empty, reason, sweep, false, 0⟩

/-- The sweep of `s`, whose last slot `k` had result `r`, has ended COMPLETE: both lanes are empty, no pair input is
PENDING, and the summary waits, with its notice request but where the sweep is a LOOP sweep that a slot has entered (R35,
R36, R37, R141). -/
structure SweepCompleted (k : SlotIx) (r : Result) (s t : State) : Prop where
  lanes : t.seq.acq = none ∧ t.seq.comp = none
  outcomes : t.seq.outcomes = s.seq.outcomes.set k (takenOutcome r)
  summary : ∃ sm n, .summary sm n ∈ t.findings.queue ∧ sm.sweep = s.seq.sweepNumber ∧ sm.mode = s.seq.mode ∧
    sm.reason = .complete ∧ sm.empty = !s.seq.entered ∧ sm.outcomes = t.seq.outcomes ∧
    (s.seq.mode ≠ .loop ∨ s.seq.entered = false → n = true)
  inputs : ∀ (j : SlotIx) (x : PairInput), t.verdict.inputs[j] = some x → x.final = true
  number : t.seq.sweepNumber = s.seq.sweepNumber
  kept : t.opt = s.opt ∧ t.intake = s.intake ∧ t.accum = s.accum ∧ t.trace = s.trace ∧ t.mem = s.mem ∧ t.pins = s.pins

/-! ### Conditions -/

/-- The Trace Engine with condition `c` raised for slot `k`: its summary mark is set and it joins the slot's conditions
seen (R100). -/
def raised (c : Condition) (k : SlotIx) (s : State) : TraceState :=
  { s.trace with
    summary := s.trace.summary.insert c
    seen := s.trace.seen.set k (s.trace.seen[k].insert c) }

/-- Condition `c` has stopped operation `b` at a point: it is raised and the background slot FREE; an invalid capture
record is filled and waits with its notice request, and where one is valid the overrun flag is set instead (R100, R103,
R104). The record that joins the queue drops an invalid record still owed since a hard reset, the model's reading (log
entry 9). -/
structure Stopped (c : Condition) (b : Background) (point : Nat) (s t : State) : Prop where
  trace : t.trace = { raised c b.slot s with
    bg := none
    capture := t.trace.capture
    captureOverrun := t.trace.captureOverrun
    glitchCount := t.trace.glitchCount }
  first : s.trace.capture = none →
    t.trace.capture = some ⟨b.op, b.slot, s.seq.sweepNumber, point, c⟩ ∧
    t.trace.captureOverrun = s.trace.captureOverrun ∧ .capture t.trace.capture true ∈ t.findings.queue ∧
    t.findings = { s.findings with queue := t.findings.queue, headWord := t.findings.headWord, resetCapture := 0 } ∧
    t.findings.queue.filter (fun r => !r.isCapture) = s.findings.queue.filter (fun r => !r.isCapture)
  later : s.trace.capture ≠ none →
    t.trace.capture = s.trace.capture ∧ t.trace.captureOverrun = true ∧ t.findings = s.findings

/-! ### Comparisons -/

/-- The glitch count as the current run ends: a LOW, HIGH or FLOOR run shorter than the confirm length counts (R112,
R113). -/
def glitchesAtEnd (c : Nat) (x : Comparison) : Nat :=
  match x.run with
  | some q => if (q.cls = .low ∨ q.cls = .high ∨ q.cls = .floor) ∧ q.length < c then x.glitches + 1 else x.glitches
  | none => x.glitches

/-- The result of a comparison whose range has ended with record `x` (R114, R117, R118). -/
def comparisonResult (b : Background) (x : Comparison) (sweep : BitVec 32) : Result :=
  let d := decidedAtEnd (recConfirm b.record) x
  ⟨d.kind, d.location, d.magnitude, d.reflective, d.preceded, b.masked, .none, sweep, b.op = .compareCommand,
    glitchesAtEnd (recConfirm b.record) x⟩

/-- The result of a comparison that a condition stops at a point (R103, R118). -/
def stoppedResult (b : Background) (point : Nat) (sweep : BitVec 32) : Result :=
  ⟨.faulted, point, 0, false, false, b.masked, .condition, sweep, b.op = .compareCommand, b.cmp.glitches⟩

/-- A point of a compare range as the search sees it: its class, its deviation and its baseline word. -/
structure ClassedPoint where
  cls : PointClass
  deviation : Int
  base : Int
  deriving DecidableEq, Repr

/-- The comparison record advanced over consecutive classed points from point `i` on (R113). -/
def advancePoints (c : Nat) (floorLevel : Int) : List ClassedPoint → Nat → Comparison → Comparison
  | [], _, x => x
  | p :: rest, i, x => advancePoints c floorLevel rest (i + 1) (advancePoint c floorLevel x i p.cls p.deviation p.base)

/-- The result of a compare range that starts at point `start` (R113, R114). -/
def resultOfPoints (c : Nat) (floorLevel : Int) (start : Nat) (ps : List ClassedPoint) : Decided :=
  decidedAtEnd c (endRun c (advancePoints c floorLevel ps start Comparison.start))

/-- The `c` points from index `n` on are all of one class. -/
def Stretch (c : Nat) (cls : PointClass) (ps : List ClassedPoint) (n : Nat) : Prop :=
  n + c ≤ ps.length ∧ ∀ j < c, (ps[n + j]?).map ClassedPoint.cls = some cls

/-- No `c` consecutive points that start before index `n` are all LOW, all HIGH or all FLOOR. -/
def NothingConfirmed (c : Nat) (ps : List ClassedPoint) (n : Nat) : Prop :=
  ∀ m < n, ¬ Stretch c .low ps m ∧ ¬ Stretch c .high ps m ∧ ¬ Stretch c .floor ps m

/-! ### Properties that every step keeps -/

/-- The status image shows the contents (R156). -/
def Mirrored (s : State) : Prop := s.mirror.image = Vector.ofFn fun i : Fin 224 => statusWord s i.val

/-- At most one source is out of COLD (R49); each timer runs for a source out of COLD, and the warm-up timer for one
that exists (R46, R49, R52). -/
structure OneSource (s : State) : Prop where
  one : ∀ i j, sourceState s i ≠ .cold → sourceState s j ≠ .cold → i = j
  warmUp : ∀ t, s.opt.warmUpTimer = some t → sourceState s t.source.toNat = .warming

/-- The lanes are empty in every state but SWEEPING (2.1). -/
def LanesInSweep (s : State) : Prop := s.seq.state ≠ .sweeping → s.seq.acq = none ∧ s.seq.comp = none

end Sys2Proof.Machine
end

