-- ==== Sys2Proof/Certificates/Slice0/Obligations.lean ====
section
/-! DEFINITION. The statements about the part, for the provers. The tables they stand in are in OBLIGATIONS.json; the
words they use are defined in Sys2Proof/Safety.lean. -/

open Sys2Proof Sys2Proof.Machine

/-! ### The queue and the step -/

/-- A step takes the command at the front of the queue and carries it out with the queue's rest; on an empty queue the
block idles. The queue is the model's own (log entries 1, 2). -/
def Obligations.StepRunsFrontCommand : Prop :=
  (∀ (c : Instr) (rest : List Instr) (s : State),
    step { s with pending := c :: rest } = exec c { s with pending := rest }) ∧
  ∀ s : State, step { s with pending := [] } = .next { s with pending := [] }

/-- No command stops the part, and none touches the commands that wait behind it. -/
def Obligations.EveryCommandAnswers : Prop :=
  ∀ (c : Instr) (s : State), ∃ t, exec c s = .next t ∧ t.pending = s.pending

/-! ### What every step keeps -/

/-- Memory keeps its canonical form through every step. -/
def Obligations.MemoryStaysCanonical : Prop :=
  ∀ s t : State, Memory.wf s.mem = true → step s = .next t → Memory.wf t.mem = true

/-- The status image shows the contents after every step (R156). -/
def Obligations.MirrorShowsContents : Prop :=
  ∀ s t : State, Mirrored s → step s = .next t → Mirrored t

/-- At most one source is out of COLD after every step (R49). -/
def Obligations.OneSourceOutOfCold : Prop :=
  ∀ s t : State, OneSource s → step s = .next t → OneSource t

/-- The consecutive-PASS count stays at 8 or below (R173). -/
def Obligations.PassCountBounded : Prop :=
  ∀ s t : State, s.path.passCount ≤ 8 → step s = .next t → t.path.passCount ≤ 8

/-- The lanes stay empty in every state but SWEEPING (2.1). -/
def Obligations.LanesOnlyInSweeping : Prop :=
  ∀ s t : State, LanesInSweep s → step s = .next t → LanesInSweep t

/-- The state after reset has each of the properties above. -/
def Obligations.ResetMeetsInvariants : Prop :=
  Memory.wf State.reset.mem = true ∧ Mirrored State.reset ∧ OneSource State.reset ∧
    State.reset.path.passCount ≤ 8 ∧ LanesInSweep State.reset

/-! ### Commands of the command word -/

/-- The outcome of every command in every state, as the tables give it; the write of the command stands as the PASS
request. -/
def Obligations.OutcomeByState : Prop :=
  ∀ (c : CommandName) (operand spare tag : BitVec 8) (s : State), BusReady s →
    ∃ t, exec (commandInstr c operand spare tag) s = .next t ∧
      t.plan.lastCommand = ⟨c.code, tag, tableOutcome c operand s⟩ ∧
      t.path.pass = some ⟨0xFFF880#25, true, 0xF#4, c.word operand spare tag⟩

/-- A refused command changes no state apart from the outcome record (R20); its write still reaches memory as the PASS
request, and the status image follows the record (R18, R156). -/
def Obligations.RefusalChangesOnlyOutcome : Prop :=
  ∀ (c : CommandName) (operand spare tag : BitVec 8) (s : State), BusReady s →
    tableOutcome c operand s ≠ .accepted →
    exec (commandInstr c operand spare tag) s = .next (answered c operand spare tag (tableOutcome c operand s) s)

/-- ENABLE in OFF with the ring fault mark clear: IDLE, the duty period begins with every count 0, and nothing else
changes (R23, R59). -/
def Obligations.EnableEntersIdle : Prop :=
  ∀ (operand spare tag : BitVec 8) (s : State), BusReady s → TraceSettled s →
    s.seq.state = .off → s.plan.ringFault = false →
    exec (.enable operand spare tag) s = .next (answered .enable operand spare tag .accepted { s with
      seq.state := .idle
      opt.dutyTimer := some (headerDutyPeriod (activeHeader s))
      opt.dutyCount := ⟨0, 0, 0⟩ })

/-- DISABLE from every state (R24, R44's counterpart in the other blocks: R48, R53, R59, R80, R81, R92, R93, R129). -/
def Obligations.DisableEndsInOff : Prop :=
  ∀ (operand spare tag : BitVec 8) (s : State), BusReady s →
    ∃ t, exec (.disable operand spare tag) s = .next t ∧
      t.seq.state = .off ∧ t.seq.acq = none ∧ t.seq.comp = none ∧ t.seq.cursor = 0 ∧
      t.seq.orderEnded = false ∧ t.seq.quietEnd = false ∧ t.seq.entered = false ∧
      t.seq.sweepNumber = s.seq.sweepNumber ∧ t.seq.outcomes = s.seq.outcomes ∧
      (s.seq.state = .sweeping → t.verdict.inputs = Vector.replicate 24 none) ∧
      t.trace.bg = none ∧ t.path.guards = [] ∧
      t.opt.port = 63 ∧ t.opt.settled = false ∧ t.opt.settleTimer = none ∧
      t.opt.warm = ⟨.cold, .cold, .cold⟩ ∧ t.opt.warmUpTimer = none ∧ t.opt.warmHoldTimer = none ∧
      t.opt.dutyTimer = none ∧ t.opt.dutyCount = ⟨0, 0, 0⟩ ∧ t.opt.spacingTimer = none ∧ t.opt.testActive = false ∧
      t.intake.outstanding = [] ∧ t.intake.buffer0 = .free ∧ t.intake.buffer1 = .free ∧ t.intake.framing = none ∧
      t.intake.failures = 0 ∧ t.intake.accepted = s.intake.accepted ∧ t.intake.rejected = s.intake.rejected ∧
      t.intake.lost = s.intake.lost ∧ t.intake.lastReject = s.intake.lastReject ∧ t.intake.stray = s.intake.stray ∧
      t.accum.queue = [] ∧ t.accum.add = none ∧
      t.findings.queue = s.findings.queue ∧ t.findings.sweepEndNotice = s.findings.sweepEndNotice ∧
      t.findings.captureNotice = s.findings.captureNotice ∧ t.findings.post = s.findings.post ∧
      t.findings.taken = s.findings.taken ∧ t.trace.summary = s.trace.summary ∧ t.trace.capture = s.trace.capture ∧
      t.plan.pendingCopy = s.plan.pendingCopy ∧ SameMemory s t ∧ t.pins = s.pins

/-- REINIT from every state (R44, R81, R91, R105, R153). -/
def Obligations.ReinitRestsBlocks : Prop :=
  ∀ (operand spare tag : BitVec 8) (s : State), BusReady s →
    ∃ t, exec (.reinit operand spare tag) s = .next t ∧
      t.seq.state = (if s.seq.state = .off then .off else .idle) ∧ t.seq.acq = none ∧ t.seq.comp = none ∧
      t.seq.cursor = 0 ∧ t.seq.orderEnded = false ∧ t.seq.quietEnd = false ∧ t.seq.entered = false ∧
      t.seq.sweepNumber = s.seq.sweepNumber ∧ t.seq.outcomes = s.seq.outcomes ∧
      (s.seq.state = .sweeping → t.verdict.inputs = Vector.replicate 24 none) ∧
      t.trace.bg = none ∧ t.path.guards = [] ∧
      t.opt.port = 63 ∧ t.opt.settled = false ∧ t.opt.settleTimer = none ∧
      t.opt.warm = ⟨.cold, .cold, .cold⟩ ∧ t.opt.warmUpTimer = none ∧ t.opt.warmHoldTimer = none ∧
      t.opt.dutyTimer = s.opt.dutyTimer ∧ t.opt.dutyCount = s.opt.dutyCount ∧ t.opt.spacingTimer = none ∧
      t.opt.testActive = false ∧
      t.intake.outstanding = [] ∧ t.intake.buffer0 = .free ∧ t.intake.buffer1 = .free ∧ t.intake.framing = none ∧
      t.intake.failures = 0 ∧ t.intake.accepted = s.intake.accepted ∧ t.intake.stray = false ∧
      t.accum.queue = [] ∧ t.accum.add = none ∧ t.accum.ready = Vector.replicate 24 false ∧
      t.accum.clippedContent = s.accum.clippedContent ∧
      t.trace.summary = CondSet.empty ∧ t.trace.capture = none ∧ t.trace.captureOverrun = false ∧
      t.trace.squeezed = false ∧ t.path.strayAccess = false ∧ t.path.guardHit = false ∧
      t.findings.sweepEndNotice = false ∧ t.findings.captureNotice = false ∧
      .capture none false ∈ t.findings.queue ∧
      (∀ r ∈ t.findings.queue, ∀ sm n, r = .summary sm n → n = false) ∧
      t.findings.post = s.findings.post ∧ t.findings.taken = s.findings.taken ∧ t.findings.seq = s.findings.seq ∧
      t.plan.pendingCopy = s.plan.pendingCopy ∧ SameMemory s t ∧ t.pins = s.pins

/-- A sweep starts at once: by START in IDLE and by RELEASE in PAUSED and RESTART in WAITING or PAUSED with pause on
restart clear, with the gate asserted; by TRIGGER and by a trigger edge of the counting sense in WAITING in TRIGGERED
mode with the gate asserted; and by the gate's assertion in WAITING in another mode. Slot 0 stands in SETTLING; where
the ring pair fails the header check, the sweep ends at once with reason HEADER FAULT, in HALTED, its number incremented
(R25 to R29, R36, R42, R43). -/
def Obligations.SweepStarts : Prop :=
  ∀ (operand spare tag : BitVec 8) (s : State), BusReady s →
    let starts (begun : State → State → Prop) : Prop :=
      (s.seq.state = .idle → deferring s = false → headerMode (activeHeader s) ≠ .triggered → s.pins.gate = true →
        ∃ t, exec (.start operand spare tag) s = .next t ∧ begun s t) ∧
      (s.seq.state = .paused → s.pins.gate = true →
        ∃ t, exec (.release operand spare tag) s = .next t ∧ begun s t) ∧
      (s.seq.state = .waiting ∨ s.seq.state = .paused → headerPauseOnRestart (activeHeader s) = false →
        s.pins.gate = true → ∃ t, exec (.restart operand spare tag) s = .next t ∧ begun s t) ∧
      (s.seq.state = .waiting → headerMode (activeHeader s) = .triggered → s.pins.gate = true →
        (∃ t, exec (.trigger operand spare tag) s = .next t ∧ begun s t) ∧
        ∃ t, exec (.triggerEdge (headerTriggerEdge (activeHeader s))) s = .next t ∧
          begun (setTrigger (headerTriggerEdge (activeHeader s)) s) t) ∧
      (s.seq.state = .waiting → headerMode (activeHeader s) ≠ .triggered → s.pins.gate = false →
        ∃ t, exec .quietHoursGateAsserted s = .next t ∧ begun (setGate true s) t)
    (FirstSlotSettles s → starts SweepBegun) ∧ (RingRefused s → starts HeaderFaulted)

/-- WAITING is entered: by START in IDLE in TRIGGERED mode or with the gate deasserted, and by RELEASE in PAUSED and
RESTART in WAITING or PAUSED with pause on restart clear, with the gate deasserted (R25, R42, R43). -/
def Obligations.WaitingEntered : Prop :=
  ∀ (operand spare tag : BitVec 8) (s : State), BusReady s → TraceSettled s → PlanSettled s →
    (s.seq.state = .idle → deferring s = false →
      (headerMode (activeHeader s) = .triggered ∨ s.pins.gate = false) →
      exec (.start operand spare tag) s =
        .next (answered .start operand spare tag .accepted { s with seq.state := .waiting })) ∧
    (s.seq.state = .paused → s.pins.gate = false →
      exec (.release operand spare tag) s =
        .next (answered .release operand spare tag .accepted { s with seq.state := .waiting })) ∧
    (s.seq.state = .waiting ∨ s.seq.state = .paused → headerPauseOnRestart (activeHeader s) = false →
      s.pins.gate = false →
      exec (.restart operand spare tag) s =
        .next (answered .restart operand spare tag .accepted { s with seq.state := .waiting }))

/-- STOP in IDLE, WAITING, PAUSED and HALTED: HALTED, with every source COLD and test-active deasserted; RESTART in
WAITING or PAUSED with pause on restart set: PAUSED; RESUME in HALTED: IDLE, and nothing else changes (R40, R41, R42,
R53). -/
def Obligations.RestingStatesEntered : Prop :=
  ∀ (operand spare tag : BitVec 8) (s : State), BusReady s → TraceSettled s →
    (PlanSettled s → s.seq.state ≠ .off → s.seq.state ≠ .sweeping →
      exec (.stop operand spare tag) s = .next (answered .stop operand spare tag .accepted { s with
        seq.state := .halted
        opt.warm := ⟨.cold, .cold, .cold⟩
        opt.warmUpTimer := none
        opt.warmHoldTimer := none
        opt.testActive := false
        opt.spacingTimer := none })) ∧
    (PlanSettled s → s.seq.state = .waiting ∨ s.seq.state = .paused →
      headerPauseOnRestart (activeHeader s) = true →
      exec (.restart operand spare tag) s =
        .next (answered .restart operand spare tag .accepted { s with seq.state := .paused })) ∧
    (s.seq.state = .halted →
      exec (.resume operand spare tag) s =
        .next (answered .resume operand spare tag .accepted { s with seq.state := .idle }))

/-- STOP in SWEEPING ends the sweep STOPPED in HALTED with every source COLD; RESTART ends it RESTARTED, in PAUSED with
pause on restart set; with it clear, in WAITING with the gate deasserted, and with the gate asserted a new sweep starts
at once in every mode, slot 0 in SETTLING (R28 to R30, R36, R39, R40, R42, R53). -/
def Obligations.CommandEndsSweep : Prop :=
  ∀ (operand spare tag : BitVec 8) (s : State), BusReady s → TraceSettled s → s.seq.state = .sweeping →
    (∃ t, exec (.stop operand spare tag) s = .next t ∧ t.seq.state = .halted ∧ SweepEnded .stopped s t ∧
      t.opt.warm = ⟨.cold, .cold, .cold⟩ ∧ t.opt.warmUpTimer = none ∧ t.opt.warmHoldTimer = none ∧
      t.opt.testActive = false) ∧
    (PlanSettled s → headerPauseOnRestart (activeHeader s) = true →
      ∃ t, exec (.restart operand spare tag) s = .next t ∧ t.seq.state = .paused ∧ SweepEnded .restarted s t) ∧
    (PlanSettled s → headerPauseOnRestart (activeHeader s) = false →
      (s.pins.gate = false →
        ∃ t, exec (.restart operand spare tag) s = .next t ∧ t.seq.state = .waiting ∧ SweepEnded .restarted s t) ∧
      (s.pins.gate = true → s.plan.ringFault = false → NextSlotSettles 0 s →
        ∃ t, exec (.restart operand spare tag) s = .next t ∧ t.seq.state = .sweeping ∧
          t.seq.sweepNumber = s.seq.sweepNumber + 1 ∧ t.seq.mode = headerMode (activeHeader s) ∧
          t.seq.acq = some ⟨0, .settling⟩ ∧ t.seq.comp = none ∧ t.seq.cursor = 1 ∧ t.seq.orderEnded = false ∧
          t.seq.quietEnd = false ∧ t.seq.entered = true ∧
          t.seq.outcomes = (Vector.replicate 24 SlotOutcome.notInSweep).set 0 .notRun ∧
          (∃ sm, .summary sm true ∈ t.findings.queue ∧ sm.sweep = s.seq.sweepNumber ∧ sm.mode = s.seq.mode ∧
            sm.reason = .restarted ∧ (sm.empty = !s.seq.entered) ∧ ∀ k : SlotIx, sm.outcomes[k] = listedOutcomes s k) ∧
          (s.seq.acq ≠ none →
            t.intake.outstanding = [] ∧ t.intake.framing = none ∧ t.accum.queue = [] ∧ t.accum.add = none) ∧
          t.verdict.inputs = Vector.replicate 24 none ∧ SameMemory s t ∧ t.pins = s.pins))

/-- ACK NOTICES clears the sweep-end notice, and an accepted MARK BASED sets the named slot's based flag; neither
changes anything else (R134, R153). -/
def Obligations.AckAndMarkBased : Prop :=
  ∀ (operand spare tag : BitVec 8) (s : State), BusReady s → Settled s →
    (exec (.ackNotices operand spare tag) s =
      .next (answered .ackNotices operand spare tag .accepted { s with findings.sweepEndNotice := false })) ∧
    ∀ h : operand.toNat < 24, holdsLane s ⟨operand.toNat, h⟩ = false → adoptOverlaps s ⟨operand.toNat, h⟩ = false →
      exec (.markBased operand spare tag) s =
        .next (answered .markBased operand spare tag .accepted { s with
          verdict.table := s.verdict.table.set operand.toNat { s.verdict.table[operand.toNat] with based := true } })

/-- CLEAR CONDITIONS (R105, R153): the conditions, the capture record, the sticky flags and the capture notice clear,
the notice requests of waiting capture records are withdrawn, an invalid capture record is queued, and nothing else
changes. An invalid record still owed since a hard reset is that record, and a record whose words are partly granted is
written again from its first word where it is the capture record (log entries 9, 10). -/
def Obligations.ClearConditions : Prop :=
  ∀ (operand spare tag : BitVec 8) (s : State), BusReady s → Settled s →
    ∃ t, exec (.clearConditions operand spare tag) s = .next t ∧
      t.trace = { s.trace with summary := CondSet.empty, capture := none, captureOverrun := false, squeezed := false } ∧
      t.intake = { s.intake with stray := false } ∧
      t.path = { s.path with
        strayAccess := false
        guardHit := false
        pass := some (commandWrite .clearConditions operand spare tag) } ∧
      t.findings = { s.findings with
        captureNotice := false
        queue := t.findings.queue
        headWord := t.findings.headWord
        resetCapture := 0 } ∧
      .capture none false ∈ t.findings.queue ∧ (∀ c n, .capture c n ∈ t.findings.queue → c = none ∧ n = false) ∧
      t.findings.queue.filter (fun r => !r.isCapture) = s.findings.queue.filter (fun r => !r.isCapture) ∧
      (t.findings.headWord = match s.findings.queue with
        | .capture _ _ :: _ => 0
        | _ => s.findings.headWord) ∧
      t.seq = s.seq ∧ t.opt = s.opt ∧ t.accum = s.accum ∧ t.verdict = s.verdict ∧ t.mem = s.mem ∧ t.pins = s.pins ∧
      t.freeIndex = s.freeIndex ∧ t.pending = s.pending ∧ t.plan = { s.plan with lastCommand := ⟨0x0D, tag, .accepted⟩ }

/-- ADOPT of a ready slot: the background slot takes it with the slot's accepted count, its baseline buffer is guarded,
and the based flag clears for it and for every slot that shares the buffer. Where the accumulator holds a clipped
record, CLIPPED is met first: under MASKED the ADOPT begins with it in its masked set, and under STOPPING it ends at once
with capture point 0, no guard placed and no flag cleared (R100, R102 to R104, R122, R123). That the capture record drops
an invalid one still owed since a hard reset is the model's reading (log entry 9). -/
def Obligations.AdoptBegins : Prop :=
  ∀ (k : SlotIx) (spare tag : BitVec 8) (s : State), BusReady s → Mirrored s →
    s.seq.state = .idle ∨ s.seq.state = .halted →
    s.trace.bg = none → s.accum.ready[k] = true →
    recAccBase (activeRecord s k) < 0x1000000 →
    let met := s.accum.clippedContent[k]
    let stops := met && (headerStopping (activeHeader s)).clipped
    (stops = false →
      ∃ b, b.op = .adopt ∧ b.slot = k ∧ b.shots = s.intake.accepted[k] ∧ b.record = activeRecord s k ∧ b.point = 0 ∧
        b.stopping = headerStopping (activeHeader s) ∧ b.acc = none ∧ b.masked = ⟨false, false, met⟩ ∧
        b.raised = ⟨false, false, met⟩ ∧
        exec (.adopt (BitVec.ofNat 8 k.val) spare tag) s =
          .next (answered .adopt (BitVec.ofNat 8 k.val) spare tag .accepted (placeGuard
            ⟨.adopt, k, recBaseBase (activeRecord s k), recPoints (activeRecord s k)⟩
            (clearSharedBased k { s with trace := { (if met then raised .clipped k s else s.trace) with
              bg := some b } })))) ∧
    (stops = true → PlanSettled s →
      ∃ t b, exec (.adopt (BitVec.ofNat 8 k.val) spare tag) s = .next t ∧ b.op = .adopt ∧ b.slot = k ∧
        Stopped .clipped b 0 s t ∧ t.trace.glitchCount = s.trace.glitchCount ∧
        t.path = { s.path with
          guards := s.path.guards.filter fun g => !(g.holder = .adopt && g.slot = k)
          pass := some (commandWrite .adopt (BitVec.ofNat 8 k.val) spare tag) } ∧
        t.plan = { s.plan with lastCommand := ⟨0x0A, tag, .accepted⟩ } ∧ t.verdict = s.verdict ∧ t.accum = s.accum ∧
        t.seq = s.seq ∧ t.opt = s.opt ∧ t.intake = s.intake ∧ t.mem = s.mem ∧ t.pins = s.pins)

/-- COMPARE in HALTED of a slot with a nonzero injected shot count: the background slot takes COMPARE-COMMAND with the
injected count, and the accumulator buffer is guarded. Where the accumulator holds a clipped record, CLIPPED is met
first: under MASKED the operation begins with it in its masked set, and under STOPPING it ends at once with capture point
0 and its FAULTED result posted. An empty compare range completes at once with result CLEAR (R100, R102 to R104, R127,
R128, R142). That the capture record drops an invalid one still owed since a hard reset, and what a queued finding does to
the finding in flight and the unposted flag, are the model's readings (log entries 9, 11, 42). -/
def Obligations.CompareBegins : Prop :=
  ∀ (k : SlotIx) (spare tag : BitVec 8) (s : State), BusReady s → s.seq.state = .halted →
    s.trace.bg = none → recInjected (activeRecord s k) ≠ 0 →
    let r := activeRecord s k
    let met := s.accum.clippedContent[k]
    let stops := met && (headerStopping (activeHeader s)).clipped
    let begun (b : Background) : Prop := b.op = .compareCommand ∧ b.slot = k ∧ b.shots = recInjected r ∧ b.record = r ∧
      b.point = recCompareStart r ∧ b.zones = zoneSequence s.plan.activeCopy.zones r ∧
      b.stopping = headerStopping (activeHeader s) ∧ b.acc = none ∧ b.masked = ⟨false, false, met && !stops⟩ ∧
      b.raised = ⟨false, false, met⟩ ∧ b.cmp = Comparison.start
    let ended (t : State) : Prop :=
      t.path = { s.path with
        guards := s.path.guards.filter fun g => !(g.holder = .compareCommand && g.slot = k)
        pass := some (commandWrite .compare (BitVec.ofNat 8 k.val) spare tag) } ∧
      t.plan = { s.plan with lastCommand := ⟨0x0B, tag, .accepted⟩ } ∧ t.accum = s.accum ∧
      t.seq = s.seq ∧ t.opt = s.opt ∧ t.intake = s.intake ∧ t.mem = s.mem ∧ t.pins = s.pins
    (stops = false → recCompareStart r ≤ recCompareEnd r → recAccBase r + 4 * recCompareStart r < 0x1000000 →
      (met = true → Mirrored s) →
      ∃ b, begun b ∧
        exec (.compare (BitVec.ofNat 8 k.val) spare tag) s =
          .next (answered .compare (BitVec.ofNat 8 k.val) spare tag .accepted
            { placeGuard ⟨.compareCommand, k, recAccBase r, recPoints r⟩ s with
              trace := { (if met then raised .clipped k s else s.trace) with bg := some b } })) ∧
    (stops = false → recCompareEnd r < recCompareStart r → PlanSettled s →
      ∃ t b, exec (.compare (BitVec.ofNat 8 k.val) spare tag) s = .next t ∧ begun b ∧ ended t ∧
        t.trace = { (if met then raised .clipped k s else s.trace) with
          glitchCount := s.trace.glitchCount.set k 0 } ∧
        VerdictPosted k (unpairedVerdict (comparisonResult b Comparison.start s.seq.sweepNumber)) s t) ∧
    (stops = true → PlanSettled s →
      ∃ m t b, exec (.compare (BitVec.ofNat 8 k.val) spare tag) s = .next t ∧ begun b ∧ ended t ∧
        m = { s with findings := m.findings } ∧ Stopped .clipped b 0 s { m with trace := t.trace } ∧
        t.trace.glitchCount = s.trace.glitchCount.set k 0 ∧
        VerdictPosted k (unpairedVerdict (stoppedResult b 0 s.seq.sweepNumber)) m t)

/-- A write of the command word that names no command, and one with a byte enable clear: the outcome alone is recorded,
with the bytes enabled, and the write passes (R18, R19). -/
def Obligations.MalformedCommands : Prop :=
  ∀ s : State, BusReady s →
    (∀ data : Word, namedCode (byteOf data 0) = false →
      exec (.unknownCode data) s =
        .next (report (passAccess (pageWrite 0x880 0xF data) (recordOutcome (byteOf data 0) (byteOf data 3)
          .unknownCode s)))) ∧
    ∀ (be : Enables) (data : Word), be ≠ 0xF#4 →
      exec (.refusedForm be data) s =
        .next (report (passAccess (pageWrite 0x880 be data) (recordOutcome
          (if be.getLsbD 0 then byteOf data 0 else 0) (if be.getLsbD 3 then byteOf data 3 else 0) .refusedForm s)))

/-! ### The plan and the taken index -/

/-- A plan write in SWEEPING, or while an ADOPT or COMPARE command runs, is merged byte by byte into the pending copy and
marks its region dirty; only an immediate header word passes to the active copy, and it sets no mark (R1, R7 to R10).
With no byte enabled a zone or a record region is marked and the header is not, the model's reading (log entry 19).
Outside SWEEPING with hold clear a zone word applies at once, and a header word applies with the rest of the header but
for the ring pair, which is presented where it differs: with the ring empty a pair that fits applies and one that does
not sets the ring fault mark, and with the ring not empty it waits under the ring-pending mark (R10, R13, R14, R152; the
mark set at a first failing presentation is the model's reading, log entry 38). A write that clears hold edits there
applies every dirty region at once, a record with a change of shape clearing its slot's ready and based flags (R10, R11,
R15; bases compared as they act, log entry 39). The write stands as the PASS request. A header write in WAITING that
leaves another mode than TRIGGERED with the gate asserted, and so starts a sweep, is left apart. That the unnamed bits of
the ring capacity's word pass with the pair is the model's choice (log entry 44). -/
def Obligations.PlanWriteMerges : Prop :=
  ∀ (be : Enables) (data : Word) (s : State), BusReady s →
    (s.seq.state = .sweeping ∨ deferring s = true →
      (∀ new old : Word, ∀ j < 4,
        byteOf (mergeWord be new old) j = if be.getLsbD j then byteOf new j else byteOf old j) ∧
      (∀ i : Fin 32, (i.val < 16 ∨ 18 < i.val) →
        exec (.planWrite (BitVec.ofNat 12 (4 * i.val)) be data) s =
          .next (report (passAccess (pageWrite (BitVec.ofNat 12 (4 * i.val)) be data) { s with
            plan.pendingCopy.header :=
              s.plan.pendingCopy.header.set i (mergeWord be data s.plan.pendingCopy.header[i])
            plan.headerDirty := s.plan.headerDirty || be != 0 }))) ∧
      (∀ i : Fin 32, 16 ≤ i.val → i.val ≤ 18 →
        exec (.planWrite (BitVec.ofNat 12 (4 * i.val)) be data) s =
          .next (report (passAccess (pageWrite (BitVec.ofNat 12 (4 * i.val)) be data) { s with
            plan.pendingCopy.header :=
              s.plan.pendingCopy.header.set i (mergeWord be data s.plan.pendingCopy.header[i])
            plan.activeCopy.header :=
              s.plan.activeCopy.header.set i (mergeWord be data s.plan.activeCopy.header[i]) }))) ∧
      (∀ i : Fin 128,
        exec (.planWrite (BitVec.ofNat 12 (0x080 + 4 * i.val)) be data) s =
          .next (report (passAccess (pageWrite (BitVec.ofNat 12 (0x080 + 4 * i.val)) be data) { s with
            plan.pendingCopy.zones := s.plan.pendingCopy.zones.set i (mergeWord be data s.plan.pendingCopy.zones[i])
            plan.zonesDirty := true }))) ∧
      ∀ (k : SlotIx) (i : Fin 16),
        exec (.planWrite (BitVec.ofNat 12 (0x280 + 64 * k.val + 4 * i.val)) be data) s =
          .next (report (passAccess (pageWrite (BitVec.ofNat 12 (0x280 + 64 * k.val + 4 * i.val)) be data) { s with
            plan.pendingCopy.records := s.plan.pendingCopy.records.set k
              (s.plan.pendingCopy.records[k].set i (mergeWord be data s.plan.pendingCopy.records[k][i]))
            plan.recordDirty := s.plan.recordDirty.set k true }))) ∧
    (∀ i : Fin 32, 16 ≤ i.val → i.val ≤ 18 → headerDue s = false → s.plan.zonesDirty = false →
      (∀ k : SlotIx, s.plan.recordDirty[k] = false) →
      exec (.planWrite (BitVec.ofNat 12 (4 * i.val)) be data) s =
        .next (report (passAccess (pageWrite (BitVec.ofNat 12 (4 * i.val)) be data) { s with
          plan.pendingCopy.header := s.plan.pendingCopy.header.set i (mergeWord be data s.plan.pendingCopy.header[i])
          plan.activeCopy.header :=
            s.plan.activeCopy.header.set i (mergeWord be data s.plan.activeCopy.header[i]) }))) ∧
    (∀ i : Fin 128, s.seq.state ≠ .sweeping → deferring s = false → holdFlag s = false → PlanSettled s →
      let zones := s.plan.pendingCopy.zones.set i (mergeWord be data s.plan.pendingCopy.zones[i])
      exec (.planWrite (BitVec.ofNat 12 (0x080 + 4 * i.val)) be data) s =
        .next (report (passAccess (pageWrite (BitVec.ofNat 12 (0x080 + 4 * i.val)) be data) { s with
          plan.pendingCopy.zones := zones
          plan.activeCopy.zones := zones }))) ∧
    (s.seq.state ≠ .sweeping → deferring s = false → TraceSettled s → be.getLsbD 0 = true → data.getLsbD 0 = false →
      let pending := s.plan.pendingCopy.header.set 16 (mergeWord be data s.plan.pendingCopy.header[16])
      let active := s.plan.activeCopy.header.set 16 (mergeWord be data s.plan.activeCopy.header[16])
      (s.seq.state = .waiting →
        headerMode (if headerDue s then pending else active) = .triggered ∨ s.pins.gate = false) →
      ∃ t, exec (.planWrite 0x040 be data) s = .next t ∧ holdFlag t = false ∧
        t.plan.pendingCopy = { s.plan.pendingCopy with header := pending } ∧ t.plan.headerDirty = false ∧
        t.plan.zonesDirty = false ∧
        (∀ i : Fin 32, i ≠ 6 → i ≠ 7 → (activeHeader t)[i] = if headerDue s then pending[i] else active[i]) ∧
        t.plan.activeCopy.zones = (if s.plan.zonesDirty then s.plan.pendingCopy.zones else s.plan.activeCopy.zones) ∧
        (∀ k : SlotIx, t.plan.recordDirty[k] = false ∧
          activeRecord t k = (if s.plan.recordDirty[k] then s.plan.pendingCopy.records[k] else activeRecord s k) ∧
          (shapeOf (activeRecord t k) = shapeOf (activeRecord s k) →
            t.accum.ready[k] = s.accum.ready[k] ∧ t.verdict.table[k] = s.verdict.table[k]) ∧
          (shapeOf (activeRecord t k) ≠ shapeOf (activeRecord s k) →
            t.accum.ready[k] = false ∧ t.verdict.table[k] = { s.verdict.table[k] with based := false })) ∧
        t.path = { s.path with pass := some (pageWrite 0x040 be data) } ∧ t.seq = s.seq ∧ t.opt = s.opt ∧
        t.intake = s.intake ∧ t.trace = s.trace ∧ t.mem = s.mem ∧ t.pins = s.pins) ∧
    ∀ i : Fin 32, i.val < 16 ∨ 18 < i.val → s.seq.state ≠ .sweeping → deferring s = false → holdFlag s = false →
      s.plan.zonesDirty = false → (∀ k : SlotIx, s.plan.recordDirty[k] = false) → TraceSettled s → be ≠ 0 →
      let h := s.plan.pendingCopy.header.set i (mergeWord be data s.plan.pendingCopy.header[i])
      (s.seq.state = .waiting → headerMode h = .triggered ∨ s.pins.gate = false) →
      let held := (h.set 6 (activeHeader s)[6]).set 7 (activeHeader s)[7]
      let empty := occupancy s = 0 ∧ findingsWaiting s = 0
      let fits := headerRingBase h + 16 * headerRingCapacity h ≤ 0xFFF000
      let leaves (active : Vector Word 32) (pending fault : Bool) (fill : Nat) : Prop :=
        exec (.planWrite (BitVec.ofNat 12 (4 * i.val)) be data) s =
          .next (report (passAccess (pageWrite (BitVec.ofNat 12 (4 * i.val)) be data) { s with
            plan := { s.plan with
              pendingCopy.header := h
              activeCopy.header := active
              headerDirty := false
              ringPending := pending
              ringFault := fault }
            findings.fill := fill }))
      (headerRingWritten h ≠ headerRingWritten (activeHeader s) →
        (empty → fits → leaves h false false 0) ∧ (empty → ¬ fits → leaves held true true s.findings.fill) ∧
        (¬ empty → leaves held true (!decide fits) s.findings.fill)) ∧
      (headerRingWritten h = headerRingWritten (activeHeader s) → leaves held false false s.findings.fill)

/-- A write to a slot record outside SWEEPING, with hold 0, nothing else dirty and no commanded operation in flight,
passes to the active copy at once; if a shape field changes, the slot's ready and based flags clear (R8, R10, R15). The
bases are compared as they act, with their two lowest bits 0, the model's reading (log entry 39). -/
def Obligations.RecordWriteApplies : Prop :=
  ∀ (k : SlotIx) (i : Fin 16) (be : Enables) (data : Word) (r : Record16) (s : State), BusReady s →
    s.seq.state ≠ .sweeping → deferring s = false → holdFlag s = false → PlanSettled s →
    r = s.plan.pendingCopy.records[k].set i (mergeWord be data s.plan.pendingCopy.records[k][i]) →
    ∃ t, exec (.planWrite (BitVec.ofNat 12 (0x280 + 64 * k.val + 4 * i.val)) be data) s = .next t ∧
      t.plan = { s.plan with
        pendingCopy.records := s.plan.pendingCopy.records.set k r
        activeCopy.records := s.plan.activeCopy.records.set k r } ∧
      (shapeOf r = shapeOf (activeRecord s k) → t.accum = s.accum ∧ t.verdict = s.verdict) ∧
      (shapeOf r ≠ shapeOf (activeRecord s k) →
        t.accum = { s.accum with ready := s.accum.ready.set k false } ∧
        t.verdict = { s.verdict with
          table := s.verdict.table.set k { s.verdict.table[k] with based := false } }) ∧
      t.path = { s.path with
        pass := some (pageWrite (BitVec.ofNat 12 (0x280 + 64 * k.val + 4 * i.val)) be data) } ∧
      t.seq = s.seq ∧ t.opt = s.opt ∧ t.intake = s.intake ∧ t.trace = s.trace ∧ t.findings = s.findings ∧
      t.mem = s.mem ∧ t.pins = s.pins

/-- The ring capacity acted on, and the bytes the ring occupies: every entry lies in the capacity times 16 bytes from
the ring base (R4). -/
def Obligations.RingCapacityActedOn : Prop :=
  (∀ h : Vector Word 32,
    (field h[7] 0 16 < 16 → headerRingCapacity h = 16) ∧
    (1024 < field h[7] 0 16 → headerRingCapacity h = 1024) ∧
    (16 ≤ field h[7] 0 16 → field h[7] 0 16 ≤ 1024 →
      (∃ e, headerRingCapacity h = 2 ^ e) ∧ headerRingCapacity h ≤ field h[7] 0 16 ∧
        field h[7] 0 16 < 2 * headerRingCapacity h)) ∧
  ∀ (s : State) (f : Finding),
    headerRingBase (activeHeader s) ≤ recordBase s (.finding f) ∧
    recordBase s (.finding f) + 16 ≤ headerRingBase (activeHeader s) + 16 * ringCapacity s ∧
    16 ∣ recordBase s (.finding f) - headerRingBase (activeHeader s)

/-- A taken index write is accepted when both bytes are enabled and the index lies neither behind the ring fill nor so
far back that the findings waiting would not fit; it is refused otherwise. Either way the words of T and of the flags
are marked dirty and the write passes (R151). An accepted write that empties the ring outside SWEEPING, with hold clear
and no commanded operation in flight, presents a pending ring pair: one that fits applies, with the ring fill 0 and both
marks clear, and one that does not sets the ring fault mark (R13, R14, R152). That the unnamed bits of the ring
capacity's word pass with the pair is the model's choice (log entry 44). -/
def Obligations.TakenIndexJudged : Prop :=
  ∀ (be : Enables) (data : Word) (s : State), BusReady s →
    let t := data.extractLsb' 0 16
    let accepted := be.getLsbD 0 = true ∧ be.getLsbD 1 = true ∧ (s.findings.post - t).toNat ≤ s.findings.fill ∧
      (s.findings.post - t).toNat + findingsWaiting s ≤ ringCapacity s
    let presents := s.plan.ringPending = true ∧ s.seq.state ≠ .sweeping ∧ holdFlag s = false ∧ deferring s = false ∧
      (s.findings.post - t).toNat = 0 ∧ findingsWaiting s = 0
    let h := s.plan.pendingCopy.header
    let taken := markDirty 5 (markDirty 4 { s with
      findings.taken := t
      findings.takenRefused := false
      findings.ringFull := s.findings.ringFull &&
        !decide ((s.findings.post - t).toNat + findingsWaiting s < ringCapacity s) })
    let leaves (u : State) : Prop :=
      exec (.takenIndexWrite be data) s = .next (report (passAccess (pageWrite 0x884 be data) u))
    (accepted → ¬ presents → leaves taken) ∧
    (accepted → presents → headerRingWritten h ≠ headerRingWritten (activeHeader s) →
      (headerRingBase h + 16 * headerRingCapacity h ≤ 0xFFF000 →
        leaves { taken with
          plan.activeCopy.header := ((activeHeader s).set 6 h[6]).set 7 h[7]
          plan.ringPending := false
          plan.ringFault := false
          findings.fill := 0 }) ∧
      (0xFFF000 < headerRingBase h + 16 * headerRingCapacity h →
        leaves { taken with plan.ringPending := true, plan.ringFault := true })) ∧
    (¬ accepted → leaves (markDirty 5 (markDirty 4 { s with findings.takenRefused := true })))

/-! ### The memory path -/

/-- A write to trace memory that no guard covers, one to a plain word of the control page, and a read of either, become
the PASS request unchanged; a write to a guarded word is discarded and sets guard hit (R167, R168, R170). -/
def Obligations.MemoryAccessPasses : Prop :=
  ∀ (addr : Addr) (be : Enables) (data : Word) (s : State), BusReady s →
    let a := addr.toNat / 4 * 4
    let covered := a < 0xFFF000 ∧ ∃ g ∈ s.path.guards, g.base ≤ a ∧ a < g.base + 4 * g.words
    (plainWriteAddress addr.toNat = true → ¬ covered →
      exec (.upstreamMemoryWrite addr be data) s =
        .next (report { s with path.pass := some ⟨addr, true, be, data⟩ })) ∧
    (plainWriteAddress addr.toNat = true → covered →
      exec (.upstreamMemoryWrite addr be data) s = .next (report { s with path.guardHit := true })) ∧
    (addr.toNat < 0x1000000 →
      exec (.upstreamMemoryRead addr be) s = .next (report { s with path.pass := some ⟨addr, false, be, 0⟩ }))

/-- A write to a part-written area is discarded with guard hit set; a stray access sets stray access, and a stray read
is answered with 0; a read of the shot window is answered with 0 (R167, R175). -/
def Obligations.DiscardedAccesses : Prop :=
  ∀ s : State, BusReady s →
    (∀ (offset : BitVec 12) (be : Enables) (data : Word), 0x900 ≤ offset.toNat → offset.toNat < 0xCE0 →
      exec (.partWrittenAreaWrite offset be data) s = .next (report { s with path.guardHit := true })) ∧
    (∀ (addr : Addr) (be : Enables) (data : Word), strayAddress addr.toNat = true →
      exec (.strayAccess addr true be data) s = .next (report { s with path.strayAccess := true }) ∧
      exec (.strayAccess addr false be data) s =
        .next (report { s with path.strayAccess := true, path.readData := 0 })) ∧
    ∀ (offset : BitVec 16) (be : Enables),
      exec (.shotWindowRead offset be) s = .next (report { s with path.readData := 0 })

/-- A write to the view window changes nothing, in every state of the sequencer and whatever its byte enables; a read
of it makes no PASS request, and in OFF it is answered with 0 (R165). -/
def Obligations.ViewWindowWritesDiscarded : Prop :=
  ∀ (offset : BitVec 16) (be : Enables) (s : State), BusReady s →
    (∀ data : Word, exec (.viewWindowWrite offset be data) s = .next (report s)) ∧
    (∃ t, exec (.viewRead offset be) s = .next t ∧ t.path.pass = none) ∧
    (s.seq.state = .off → s.trace.bg = none →
      exec (.viewRead offset be) s = .next (report { s with path.readData := 0 }))

/-- A PASS grant: a read returns the whole word; a write changes the bytes whose enables are set and no others, clears
the ready flag of every slot whose active accumulator buffer holds the word and the based flag of every slot whose
active baseline buffer does, and does nothing else (R168, R171). -/
def Obligations.PassGrantReachesMemory : Prop :=
  ∀ (a : Access) (count : Nat) (s : State), EventReady s → Memory.wf s.mem = true → s.trace.view = none →
    s.trace.bg = none → s.path.pass = some a → a.word < 0x1000000 → decision s = some (.pass, count) →
    (a.write = false →
      exec .passGrant s = .next (report { s with
        path.pass := none
        path.passCount := count
        path.readData := wordOfBytes (readByte s.mem a.word) (readByte s.mem (a.word + 1))
          (readByte s.mem (a.word + 2)) (readByte s.mem (a.word + 3)) })) ∧
    (a.write = true →
      ∃ t, exec .passGrant s = .next t ∧
        (∀ x, readByte t.mem x =
          if a.word ≤ x ∧ x < a.word + 4 ∧ a.be.getLsbD (x - a.word) = true then byteOf a.data (x - a.word)
          else readByte s.mem x) ∧
        (∀ k : SlotIx, t.accum.ready[k] = (s.accum.ready[k] && !(a.be != 0 && inAccBuffer s k a.word))) ∧
        (∀ k : SlotIx, t.verdict.table[k] = { s.verdict.table[k] with
          based := s.verdict.table[k].based && !(a.be != 0 && inBaseBuffer s k a.word) }) ∧
        t.path = { s.path with pass := none, passCount := count } ∧
        t.accum = { s.accum with ready := t.accum.ready } ∧ t.verdict = { s.verdict with table := t.verdict.table } ∧
        t.plan = s.plan ∧ t.seq = s.seq ∧ t.opt = s.opt ∧ t.intake = s.intake ∧ t.trace = s.trace ∧
        t.findings = s.findings ∧ t.pins = s.pins)

/-- The arbiter's decision by the standing requests and the consecutive-PASS count; a grant that the decision does not
give changes nothing (R173, R174; log entry 3). -/
def Obligations.ArbiterDecides : Prop :=
  ∀ s : State,
    (s.path.pass ≠ none → firstEngine s = none → decision s = some (.pass, 0)) ∧
    (∀ e, s.path.pass ≠ none → firstEngine s = some e → s.path.passCount < 8 →
      decision s = some (.pass, s.path.passCount + 1)) ∧
    (∀ e, s.path.pass ≠ none → firstEngine s = some e → 8 ≤ s.path.passCount → decision s = some (e, 0)) ∧
    (∀ e, s.path.pass = none → firstEngine s = some e → decision s = some (e, 0)) ∧
    (s.path.pass = none → firstEngine s = none → decision s = none) ∧
    firstEngine s = ([(viewFetchStands s, Requester.viewFetch), (postStands s, .post), (accumStands s, .accum),
      (traceStands s, .trace)].find? Prod.fst).map Prod.snd ∧
    ∀ r : Requester, EventReady s → (∀ count, decision s ≠ some (r, count)) →
      exec (grantOf r) s = .next (report s)

/-- Memory changes at a grant of the PASS, ACCUM, TRACE or POST requester and at no other command. -/
def Obligations.OnlyGrantsChangeMemory : Prop :=
  ∀ (c : Instr) (s t : State), exec c s = .next t →
    c ≠ .passGrant → c ≠ .accumGrant → c ≠ .traceGrant → c ≠ .postGrant → SameMemory s t

/-- While reset is asserted no command but the reset's own changes anything except the levels of the input lines and
the accesses that wait (R178). -/
def Obligations.HeldInReset : Prop :=
  ∀ (c : Instr) (s t : State), s.pins.resetAsserted = true → exec c s = .next t → c ≠ .hardReset →
    c ≠ .resetDeasserted → t = { s with pins := t.pins, path.waiting := t.path.waiting } ∧
      t.pins.resetAsserted = true

/-! ### Shot intake and accumulation -/

/-- A header write with no record in progress: matched to the oldest outstanding shot it is framed; matched to the
younger, the oldest is lost first; matched to none it is stale (R68, R69, R76, R83). -/
def Obligations.HeaderMatched : Prop :=
  ∀ (header : Word) (s : State), BusReady s → Settled s → s.seq.state ≠ .off → s.intake.framing = none →
    (∀ k x rest, shootingSlot s = some k → s.intake.outstanding = x :: rest → shotSlot header = k.val →
      shotSource header = recSource (activeRecord s k) → x.sequence = shotSequence header →
      exec (.headerWrite header) s = .next (report (framed k x header s))) ∧
    (∀ k x y, shootingSlot s = some k → s.intake.outstanding = [x, y] → shotSlot header = k.val →
      shotSource header = recSource (activeRecord s k) → x.sequence ≠ shotSequence header →
      y.sequence = shotSequence header → s.intake.failures + 1 ≠ headerFailureLimit (activeHeader s) → Spaced s →
      exec (.headerWrite header) s = .next (report (framed k y header (shotLost k x s)))) ∧
    ((∀ k, shootingSlot s = some k → shotSlot header = k.val → shotSource header = recSource (activeRecord s k) →
        ∀ x ∈ s.intake.outstanding, x.sequence ≠ shotSequence header) →
      exec (.headerWrite header) s = .next (report { s with intake.stray := true }))

/-- A word write at the expected offset below the check word is stored as a sample word and feeds the check value; with
no record in progress a word write and a partial write are discarded, and in OFF every shot-window write is (R67, R70). -/
def Obligations.WordsTaken : Prop :=
  ∀ (offset : BitVec 14) (data : Word) (s : State), BusReady s → Settled s → offset ≠ 0 →
    (∀ k f r, s.seq.state ≠ .off → shootingSlot s = some k → s.intake.framing = some f →
      bufferAt s f.buffer = .filling r → offset.toNat = f.next → f.next < f.check →
      exec (.wordWrite offset data) s =
        .next (report (setBuffer f.buffer (.filling { r with samples := r.samples ++ [data] }) { s with
          intake.framing := some { f with next := f.next + 1, crc := crcWord f.crc data } }))) ∧
    (s.intake.framing = none ∨ s.seq.state = .off →
      exec (.wordWrite offset data) s = .next (report s) ∧
      ∀ be : Enables, be ≠ 0xF#4 → exec (.partialWrite offset be data) s = .next (report s)) ∧
    (s.seq.state = .off → exec (.headerWrite data) s = .next (report s))

/-- A record whose check word agrees, and which the clip policy does not reject, is accepted: its buffer is queued, the
failure count clears, and the add begins at once where the engine is free; a clipped record raises CLIPPED, and the LAST
ACCEPTED record ends test-active (R71, R72, R85, R86, R62). -/
def Obligations.RecordAccepted : Prop :=
  ∀ (k : SlotIx) (f : Frame) (r : ShotRecord) (data : Word) (offset : BitVec 14) (s : State), BusReady s → Settled s →
    s.seq.state ≠ .off → shootingSlot s = some k → s.intake.framing = some f → bufferAt s f.buffer = .filling r →
    offset ≠ 0 → offset.toNat = f.next → f.next = f.check → data.extractLsb' 0 16 = f.crc →
    (shotClipped r.header && recRejectClipped (activeRecord s k)) = false → s.accum.queue = [] → Spaced s →
    ∃ t, exec (.wordWrite offset data) s = .next t ∧
      t.intake = (setBuffer f.buffer (.queued r) { s with
        intake.outstanding := s.intake.outstanding.filter fun x => x.sequence != f.sequence
        intake.framing := none
        intake.failures := 0 }).intake ∧
      (s.accum.add = none → s.accum.lock[k] = .free →
        t.accum = { s.accum with
          add := some ⟨k, f.buffer, if s.intake.accepted[k] = 0 then .write else .add, shotClipped r.header, 0, none⟩
          lock := s.accum.lock.set k .adding }) ∧
      (s.accum.add ≠ none ∨ s.accum.lock[k] ≠ .free →
        t.accum = { s.accum with queue := [⟨k, f.buffer, shotClipped r.header⟩] }) ∧
      (shotClipped r.header = false → t.trace = s.trace) ∧
      (shotClipped r.header = true → t.trace = { s.trace with
        summary := { s.trace.summary with clipped := true }
        seen := s.trace.seen.set k { s.trace.seen[k] with clipped := true }
        clipNote := s.trace.clipNote.set k true }) ∧
      t.opt = { s.opt with testActive := s.opt.testActive && !(headerLastAccepted (activeHeader s) &&
        decide (s.intake.accepted[k] + queuedBuffers t = recTarget (activeRecord s k))) } ∧
      t.plan = s.plan ∧ t.seq = s.seq ∧ t.verdict = s.verdict ∧ t.findings = s.findings ∧ t.path = s.path ∧
      t.mem = s.mem ∧ t.pins = s.pins

/-- A record in progress is rejected: MISORDERED at an unexpected offset, CHECK where the check word disagrees, CLIPPED
under the clip policy, PARTIAL at a write with an enable clear, and TRUNCATED at a header, here one that then matches
nothing (R67, R68, R70, R71, R73). At the failure limit the slot ends FAULTED, reason SAMPLER (R77). -/
def Obligations.RecordRejected : Prop :=
  ∀ (k : SlotIx) (f : Frame) (s : State), BusReady s → Settled s → s.seq.state ≠ .off → shootingSlot s = some k →
    s.intake.framing = some f → s.seq.comp ≠ none → Spaced s →
    let gone (reason : RejectReason) (t : State) : Prop :=
      (s.intake.failures + 1 ≠ headerFailureLimit (activeHeader s) → t = report (rejected reason k f s)) ∧
      (s.intake.failures + 1 = headerFailureLimit (activeHeader s) →
        RunEnded k .faultedSampler s t ∧ t.intake.failures = s.intake.failures + 1 ∧
        t.intake.rejected = s.intake.rejected.set k (countUp s.intake.rejected[k]) ∧
        t.intake.lastReject = s.intake.lastReject.set k reason)
    (∀ (offset : BitVec 14) (data : Word), offset ≠ 0 →
      (offset.toNat ≠ f.next → ∃ t, exec (.wordWrite offset data) s = .next t ∧ gone .misordered t) ∧
      (offset.toNat = f.next → f.next = f.check →
        (data.extractLsb' 0 16 ≠ f.crc → ∃ t, exec (.wordWrite offset data) s = .next t ∧ gone .check t) ∧
        (data.extractLsb' 0 16 = f.crc →
          ∀ r, bufferAt s f.buffer = .filling r → shotClipped r.header = true →
            recRejectClipped (activeRecord s k) = true →
            ∃ t, exec (.wordWrite offset data) s = .next t ∧ gone .clipped t))) ∧
    (∀ (offset : BitVec 14) (be : Enables) (data : Word), be ≠ 0xF#4 →
      ∃ t, exec (.partialWrite offset be data) s = .next t ∧ gone .partialWrite t) ∧
    ∀ header : Word, s.intake.failures + 1 ≠ headerFailureLimit (activeHeader s) →
      (∀ x ∈ s.intake.outstanding, x.sequence = f.sequence) →
      exec (.headerWrite header) s =
        .next (report { rejected .truncated k f s with intake.stray := true })

/-- The deadline of an outstanding shot expires: the shot is lost, with the record in progress that was its own; at the
failure limit the slot ends FAULTED, reason SAMPLER (R76, R77). With no such shot nothing happens (log entry 3). -/
def Obligations.DeadlineLosesShot : Prop :=
  ∀ (q : BitVec 16) (s : State), EventReady s → Settled s →
    (∀ k x, shootingSlot s = some k → s.intake.outstanding.find? (fun y => y.sequence == q) = some x → Spaced s →
      (s.intake.failures + 1 ≠ headerFailureLimit (activeHeader s) →
        exec (.shotDeadlineExpiry q) s = .next (report (shotLost k x s))) ∧
      (s.intake.failures + 1 = headerFailureLimit (activeHeader s) → s.seq.comp ≠ none → s.trace.view = none →
        ∃ t, exec (.shotDeadlineExpiry q) s = .next t ∧ RunEnded k .faultedSampler s t ∧
          t.intake.failures = s.intake.failures + 1 ∧
          t.intake.lost = s.intake.lost.set k (countUp s.intake.lost[k]))) ∧
    ((∀ x ∈ s.intake.outstanding, x.sequence ≠ q) →
      exec (.shotDeadlineExpiry q) s = .next (report s))

/-- An ACCUM grant: in ADD mode a point is read, then written as the sum, which stops at the cap; in WRITE mode it is
written as the sample. No other byte of memory changes, and the flags of other slots whose buffers hold the word clear
(R87, R91, R133, R172). The write of the last point completes the add (R78, R88, R90). -/
def Obligations.AddPointGranted : Prop :=
  ∀ (a : AddState) (count : Nat) (s : State), EventReady s → Settled s → Memory.wf s.mem = true →
    s.accum.add = some a →
    decision s = some (.accum, count) → addAddress s a < 0x1000000 →
    let wrote (t : State) : Prop :=
      (∀ old, a.read = some old → (readWord t.mem (addAddress s a)).toNat =
        min 4294967295 (old.toNat + sampleAt (bufferSamples s a.buffer) a.point)) ∧
      (a.read = none →
        (readWord t.mem (addAddress s a)).toNat = sampleAt (bufferSamples s a.buffer) a.point) ∧
      (∀ x, x < addAddress s a ∨ addAddress s a + 4 ≤ x → readByte t.mem x = readByte s.mem x) ∧
      (∀ j : SlotIx, t.verdict.table[j] = { s.verdict.table[j] with
        based := s.verdict.table[j].based && !inBaseBuffer s j (addAddress s a) }) ∧
      (∀ j : SlotIx, j ≠ a.slot →
        t.accum.ready[j] = (s.accum.ready[j] && !inAccBuffer s j (addAddress s a))) ∧
      t.plan = s.plan ∧ t.trace = s.trace ∧ t.findings = s.findings ∧ t.verdict = { s.verdict with
        table := t.verdict.table } ∧ t.path = { s.path with passCount := count } ∧ t.pins = s.pins
    (a.mode = .add → a.read = none →
      exec .accumGrant s = .next (report { s with
        path.passCount := count
        accum.add := some { a with read := some (readWord s.mem (addAddress s a)) } })) ∧
    (a.mode = .write ∨ a.read ≠ none → (∀ b, s.trace.bg = some b → b.op ≠ .adopt) →
      (a.point + 1 < recPoints (activeRecord s a.slot) →
        ∃ t, exec .accumGrant s = .next t ∧ wrote t ∧
          t.accum = { s.accum with
            add := some { a with point := a.point + 1, read := none }
            ready := t.accum.ready } ∧
          t.accum.ready[a.slot] = s.accum.ready[a.slot] ∧ t.intake = s.intake ∧ t.seq = s.seq ∧ t.opt = s.opt) ∧
      (recPoints (activeRecord s a.slot) ≤ a.point + 1 → shootingSlot s = some a.slot → s.seq.comp ≠ none →
        s.trace.view = none → s.accum.queue = [] → Spaced s →
        ∃ t, exec .accumGrant s = .next t ∧ wrote t ∧
          t.accum.add = none ∧ t.accum.queue = [] ∧ t.accum.lock = s.accum.lock.set a.slot .free ∧
          t.accum.clippedContent =
            s.accum.clippedContent.set a.slot (s.accum.clippedContent[a.slot] || a.clipped) ∧
          t.intake = (setBuffer a.buffer .free { s with
            intake.accepted := s.intake.accepted.set a.slot (s.intake.accepted[a.slot] + 1) }).intake ∧
          (s.intake.accepted[a.slot] + 1 = recTarget (activeRecord s a.slot) →
            t.accum.ready[a.slot] = true ∧ t.seq = { s.seq with acq := some ⟨a.slot, .awaiting .accumulation⟩ } ∧
            t.opt = { s.opt with spacingTimer := none }) ∧
          (s.intake.accepted[a.slot] + 1 ≠ recTarget (activeRecord s a.slot) →
            t.accum.ready[a.slot] = s.accum.ready[a.slot] ∧ t.seq = s.seq ∧ t.opt = s.opt)))

/-! ### Background operations -/

/-- A TRACE grant in a comparison: the accumulator word of the point is fetched, then its baseline word; the point
advances the comparison record, and the operation goes on to the next point or, at the compare end, reports the result
with its glitch count: a COMPARE-RUN's slot enters POSTING with it, and a COMPARE-COMMAND's is posted by itself, its
guard lifted (R112, R113, R118, R119, R120, R128, R142). Here no condition is met. What a queued finding does to the
finding in flight and the unposted flag is the model's reading (log entries 11, 42). -/
def Obligations.ComparePointGranted : Prop :=
  ∀ (b : Background) (count : Nat) (s : State), EventReady s → s.trace.view = none → laneCalls s = false →
    sweepOver s = false → s.trace.bg = some b → b.op ≠ .adopt → decision s = some (.trace, count) →
    accAddress b < 0x1000000 → baseAddress b < 0x1000000 →
    (b.acc = none →
      exec .traceGrant s = .next (report { s with
        path.passCount := count
        trace.bg := some { b with acc := some (readWord s.mem (accAddress b)) } })) ∧
    (∀ acc, b.acc = some acc →
      saturatedPoint acc (recDark b.record) b.shots = false →
      (readWord s.mem (baseAddress b)).toInt ≠ -2147483648 →
      let base := readWord s.mem (baseAddress b)
      let x := advancePoint (recConfirm b.record) (recFloor b.record) b.cmp b.point (classify b b.point acc base)
        (pointDeviation b acc base) base.toInt
      let r := comparisonResult b x s.seq.sweepNumber
      let ended (t : State) : Prop :=
        t.trace = { s.trace with bg := none, glitchCount := s.trace.glitchCount.set b.slot r.glitches } ∧
        t.plan = s.plan ∧ t.opt = s.opt ∧ t.intake = s.intake ∧ t.accum = s.accum ∧ t.mem = s.mem ∧ t.pins = s.pins
      (b.point < recCompareEnd b.record → accAddress b + 4 < 0x1000000 →
        exec .traceGrant s = .next (report { s with
          path.passCount := count
          trace.bg := some { b with point := b.point + 1, acc := none, cmp := x } })) ∧
      (recCompareEnd b.record ≤ b.point → b.op = .compareRun → s.seq.comp = some ⟨b.slot, .comparing⟩ →
        ∃ t, exec .traceGrant s = .next t ∧ ended t ∧ t.seq = { s.seq with comp := some ⟨b.slot, .posting r⟩ } ∧
          t.path = { s.path with passCount := count } ∧ t.verdict = s.verdict ∧ t.findings = s.findings) ∧
      (recCompareEnd b.record ≤ b.point → b.op = .compareCommand → s.seq.state ≠ .sweeping → PlanSettled s →
        ∃ t, exec .traceGrant s = .next t ∧ ended t ∧ t.seq = s.seq ∧
          t.path = { s.path with
            passCount := count
            guards := s.path.guards.filter fun g => !(g.holder = .compareCommand && g.slot = b.slot) } ∧
          VerdictPosted b.slot (unpairedVerdict r) s t))

/-- GAP and SATURATED met by an operation at a point, SATURATED tested first. Under STOPPING the operation stops there:
the condition is raised, the first stop fills the capture record and queues it with its notice request and a later one
sets the overrun flag; a COMPARE-RUN's slot passes to POSTING with FAULTED, reason CONDITION, at that point, a
COMPARE-COMMAND's such result is posted by itself, and an ADOPT ends without completing. Under MASKED the operation goes
on with the condition in its masked set: a GAP point is skipped and a SATURATED one classed or fetched as it stands
(R100, R102, R103, R104, R118, R124, R126, R128). That the capture record drops an invalid one still owed since a hard
reset, and what a queued finding does to the finding in flight and the unposted flag, are the model's readings (log
entries 9, 11, 42). -/
def Obligations.GapMet : Prop :=
  ∀ (b : Background) (count : Nat) (s : State), EventReady s → s.trace.view = none → laneCalls s = false →
    sweepOver s = false → s.trace.bg = some b → decision s = some (.trace, count) →
    let lifted (h : GuardHolder) (t : State) : Prop := t.path = { s.path with
      passCount := count
      guards := s.path.guards.filter fun g => !(g.holder = h && g.slot = b.slot) }
    let kept (t : State) : Prop :=
      t.plan = s.plan ∧ t.opt = s.opt ∧ t.intake = s.intake ∧ t.accum = s.accum ∧ t.mem = s.mem ∧ t.pins = s.pins
    (∀ (acc : Word) (c : Condition), b.op ≠ .adopt → b.acc = some acc → baseAddress b < 0x1000000 →
      b.raised.has c = false →
      let base := readWord s.mem (baseAddress b)
      let saturated := saturatedPoint acc (recDark b.record) b.shots
      c = .saturated ∧ saturated = true ∨ c = .gap ∧ saturated = false ∧ base.toInt = -2147483648 →
      (b.stopping.has c = true → b.op = .compareRun → s.seq.comp = some ⟨b.slot, .comparing⟩ →
        ∃ t, exec .traceGrant s = .next t ∧ Stopped c b b.point s t ∧ kept t ∧
          t.seq = { s.seq with comp := some ⟨b.slot, .posting (stoppedResult b b.point s.seq.sweepNumber)⟩ } ∧
          t.trace.glitchCount = s.trace.glitchCount.set b.slot b.cmp.glitches ∧
          t.path = { s.path with passCount := count } ∧ t.verdict = s.verdict) ∧
      (b.stopping.has c = true → b.op = .compareCommand → s.seq.state ≠ .sweeping → PlanSettled s →
        ∃ m t, exec .traceGrant s = .next t ∧ m = { s with findings := m.findings } ∧
          Stopped c b b.point s { m with trace := t.trace } ∧ kept t ∧ t.seq = s.seq ∧
          t.trace.glitchCount = s.trace.glitchCount.set b.slot b.cmp.glitches ∧ lifted .compareCommand t ∧
          VerdictPosted b.slot (unpairedVerdict (stoppedResult b b.point s.seq.sweepNumber)) m t) ∧
      (b.stopping.has c = false → (c = .saturated → base.toInt ≠ -2147483648) → b.point < recCompareEnd b.record →
        accAddress b + 4 < 0x1000000 →
        exec .traceGrant s = .next (report { s with
          path.passCount := count
          trace := { raised c b.slot s with bg := some { b with
            raised := b.raised.insert c
            masked := b.masked.insert c
            point := b.point + 1
            acc := none
            cmp := if c = .gap then
                { b.cmp with run := none, prev := some .skip, glitches := glitchesAtEnd (recConfirm b.record) b.cmp }
              else advancePoint (recConfirm b.record) (recFloor b.record) b.cmp b.point (classify b b.point acc base)
                (pointDeviation b acc base) base.toInt } } }))) ∧
    (b.op = .adopt → b.acc = none → s.seq.state ≠ .sweeping → accAddress b < 0x1000000 → baseAddress b < 0x1000000 →
      recCompareStart b.record ≤ b.point → b.point ≤ recCompareEnd b.record → b.raised.saturated = false →
      saturatedPoint (readWord s.mem (accAddress b)) (recDark b.record) b.shots = true →
      (b.stopping.saturated = true → PlanSettled s →
        ∃ t, exec .traceGrant s = .next t ∧ Stopped .saturated b b.point s t ∧ kept t ∧ t.seq = s.seq ∧
          t.trace.glitchCount = s.trace.glitchCount ∧ lifted .adopt t ∧ t.verdict = s.verdict) ∧
      (b.stopping.saturated = false →
        exec .traceGrant s = .next (report { s with
          path.passCount := count
          trace := { raised .saturated b.slot s with bg := some { b with
            raised := b.raised.insert .saturated
            masked := b.masked.insert .saturated
            acc := some (readWord s.mem (accAddress b)) } } })))

/-- A TRACE grant in an ADOPT: the point's accumulator word is fetched; then its baseline word is written with the
point's level, or the NO LIGHT code where it is dark, no other byte of memory changes, and flags of slots whose buffers
hold the word clear but the slot's own based flag; after the last point the slot is based, its guard lifted and the
background slot FREE (R119, R124, R125, R172). Here no condition is met and the word lies in no accumulator buffer. An
upstream write into the accumulator buffer of a ready slot clears its ready flag and ends its ADOPT without completing;
where it writes the very word that the point in progress has read, the point is still written from the old word, and the
ADOPT ends with that write, its slot not based (R126, R171; the model's reading, log entry 41). -/
def Obligations.AdoptPointGranted : Prop :=
  ∀ (b : Background) (count : Nat) (s : State), EventReady s → s.trace.view = none → s.seq.state ≠ .sweeping →
    Memory.wf s.mem = true → s.trace.bg = some b → b.op = .adopt →
    let lifted (t : State) : Prop :=
      t.path.guards = s.path.guards.filter fun g => !(g.holder = .adopt && g.slot = b.slot)
    (b.acc = none → decision s = some (.trace, count) → accAddress b < 0x1000000 → baseAddress b < 0x1000000 →
      saturatedPoint (readWord s.mem (accAddress b)) (recDark b.record) b.shots = false →
      exec .traceGrant s = .next (report { s with
        path.passCount := count
        trace.bg := some { b with acc := some (readWord s.mem (accAddress b)) } })) ∧
    (∀ acc, b.acc = some acc → decision s = some (.trace, count) → baseAddress b < 0x1000000 →
      (∀ j : SlotIx, inAccBuffer s j (baseAddress b) = false) → accAddress b + 4 < 0x1000000 →
      ∃ t, exec .traceGrant s = .next t ∧
        readWord t.mem (baseAddress b) = BitVec.ofInt 32
          (if (acc.toNat : Int) - (recDark b.record * b.shots : Nat) ≤ 0 then -2147483647
           else level ((acc.toNat : Int) - (recDark b.record * b.shots : Nat)).toNat 1 b.shots) ∧
        (∀ x, x < baseAddress b ∨ baseAddress b + 4 ≤ x → readByte t.mem x = readByte s.mem x) ∧
        (s.accum.ready[b.slot] = true ∧ b.point + 1 < recPoints b.record ∨ PlanSettled s →
          (∀ j : SlotIx, j ≠ b.slot → t.verdict.table[j] = { s.verdict.table[j] with
            based := s.verdict.table[j].based && !inBaseBuffer s j (baseAddress b) }) ∧
          t.plan = s.plan ∧ t.accum = s.accum ∧ t.findings = s.findings) ∧
        (s.accum.ready[b.slot] = true → b.point + 1 < recPoints b.record →
          t.trace = { s.trace with bg := some { b with point := b.point + 1, acc := none } } ∧
          t.verdict.table[b.slot] = s.verdict.table[b.slot] ∧ t.path = { s.path with passCount := count }) ∧
        (s.accum.ready[b.slot] = false ∨ recPoints b.record ≤ b.point + 1 →
          t.trace = { s.trace with bg := none } ∧ lifted t ∧
          t.path = { s.path with passCount := count, guards := t.path.guards } ∧
          (PlanSettled s → t.verdict.table[b.slot] =
            { s.verdict.table[b.slot] with based := s.accum.ready[b.slot] || s.verdict.table[b.slot].based })) ∧
        t.seq = s.seq ∧ t.opt = s.opt ∧ t.intake = s.intake ∧ t.pins = s.pins) ∧
    (∀ a : Access, s.path.pass = some a → decision s = some (.pass, count) → a.write = true → a.be ≠ 0 →
      a.word < 0x1000000 → inAccBuffer s b.slot a.word = true → s.accum.ready[b.slot] = true →
      let held := b.acc ≠ none ∧ a.word = accAddress b
      (held → baseAddress b < 0x1000000) → (¬ held → PlanSettled s) →
      ∃ t, exec .passGrant s = .next t ∧
        (∀ x, readByte t.mem x =
          if a.word ≤ x ∧ x < a.word + 4 ∧ a.be.getLsbD (x - a.word) = true then byteOf a.data (x - a.word)
          else readByte s.mem x) ∧
        (held → t.trace = s.trace ∧ t.path.guards = s.path.guards) ∧
        (¬ held → t.trace = { s.trace with bg := none } ∧ lifted t) ∧
        t.path = { s.path with pass := none, passCount := count, guards := t.path.guards } ∧
        t.accum = { s.accum with ready := t.accum.ready } ∧ t.verdict = { s.verdict with table := t.verdict.table } ∧
        (∀ j : SlotIx, t.accum.ready[j] = (s.accum.ready[j] && !inAccBuffer s j a.word) ∧
          t.verdict.table[j] = { s.verdict.table[j] with
            based := s.verdict.table[j].based && !inBaseBuffer s j a.word }) ∧
        t.plan = s.plan ∧ t.seq = s.seq ∧ t.opt = s.opt ∧ t.intake = s.intake ∧ t.findings = s.findings ∧
        t.pins = s.pins)

/-- The search decides by the first confirmed departure: a compare range in which no LOW, HIGH or FLOOR stretch reaches
the confirm length is CLEAR; a first confirmed HIGH run is a REFLECTION at its start, with the mean of d over its first
c points; a first confirmed FLOOR run is a BREAK at its start, reflective when the point before is HIGH; a first
confirmed LOW run is an ANOMALY at its start where a WITHIN run is the first confirmed after it, a BREAK with a preceding
loss where a FLOOR run is, at that run's start, and a LOSS CANDIDATE where neither is (R112, R114 to R117). -/
def Obligations.FirstConfirmedRunDecides : Prop :=
  ∀ (c : Nat) (floorLevel : Int) (start : Nat) (ps : List ClassedPoint), 0 < c →
    let mean (n : Nat) : Int :=
      max (-2147483646) (min 2147483647 (((ps.drop n).take c |>.map ClassedPoint.deviation).sum.tdiv c))
    let startsAt (cls : PointClass) (n : Nat) : Prop :=
      NothingConfirmed c ps n ∧ Stretch c cls ps n ∧ (0 < n → (ps[n - 1]?).map ClassedPoint.cls ≠ some cls)
    let within (m : Nat) : Prop := Stretch c .within ps m
    let floor (m : Nat) : Prop := Stretch c .floor ps m
    let breakAt (n : Nat) (p : ClassedPoint) (preceded : Bool) : Decided :=
      ⟨.brk, start + n, max (-2147483646) (min 2147483647 (floorLevel - p.base)),
        decide (0 < n ∧ (ps[n - 1]?).map ClassedPoint.cls = some .high), preceded⟩
    (NothingConfirmed c ps ps.length → resultOfPoints c floorLevel start ps = ⟨.clear, 0, 0, false, false⟩) ∧
    (∀ n, startsAt .high n →
      resultOfPoints c floorLevel start ps = ⟨.reflection, start + n, mean n, false, false⟩) ∧
    (∀ n p, startsAt .floor n → ps[n]? = some p → resultOfPoints c floorLevel start ps = breakAt n p false) ∧
    ∀ n, startsAt .low n →
      ((∀ m, n < m → ¬ within m ∧ ¬ floor m) →
        resultOfPoints c floorLevel start ps = ⟨.lossCandidate, start + n, mean n, false, false⟩) ∧
      ∀ m, n < m → (∀ j, n < j → j < m → ¬ within j ∧ ¬ floor j) →
        (within m → resultOfPoints c floorLevel start ps = ⟨.anomaly, start + n, mean n, false, false⟩) ∧
        ∀ p, floor m → ps[m]? = some p → resultOfPoints c floorLevel start ps = breakAt m p true

/-! ### View reads -/

/-- A view read that needs no word, or must wait: with a background operation in flight it waits for the point in
progress, whose request stands (log entry 18); beyond the output count and at an accepted count of 0 it is answered with
the codes of its format; while its lock is held, it waits; otherwise it takes the lock and S and fetches its first word
(R160, R161, R162, R163, R174). -/
def Obligations.ViewReadTaken : Prop :=
  ∀ (offset : BitVec 16) (be : Enables) (s : State), BusReady s →
    let access : Access := ⟨viewAddress offset, false, be, 0⟩
    let f := viewFields s
    let j := offset.toNat / 4
    let beyond := ∀ p ∈ outputPoints f j, f.count ≤ p
    (∀ b, s.trace.bg = some b → TraceSettled s →
      ∃ t, exec (.viewRead offset be) s = .next t ∧
        t = report { s with trace.view := some ⟨access, .waitPoint b.point⟩ } ∧ traceStands t = true) ∧
    (s.trace.bg = none → s.seq.state ≠ .off →
      (beyond →
        exec (.viewRead offset be) s = .next (report { s with
          path.readData := (match f.format with
            | .linear => 0
            | .level => 0x80000001
            | .deviation => 0x80000000
            | .packed => 0x80008000) })) ∧
      (¬ beyond → s.accum.lock[f.slot] ≠ .free →
        exec (.viewRead offset be) s = .next (report { s with trace.view := some ⟨access, .waitLock f⟩ })) ∧
      (¬ beyond → s.accum.lock[f.slot] = .free → s.intake.accepted[f.slot] = 0 → s.accum.queue = [] →
        exec (.viewRead offset be) s = .next (report { s with
          path.readData := (match f.format with
            | .linear => 0
            | .level => 0x80000001
            | .deviation => 0x80000001
            | .packed => 0x80008000) })) ∧
      (¬ beyond → s.accum.lock[f.slot] = .free → s.intake.accepted[f.slot] ≠ 0 →
        (∀ w ∈ fetchPlan f j, w.1 < 0x1000000) →
        exec (.viewRead offset be) s = .next (report { s with
          trace.view := some ⟨access, .fetching f s.intake.accepted[f.slot] []⟩
          accum.lock := s.accum.lock.set f.slot .viewing })))

/-- A VIEW FETCH grant brings the next word of a held read in its order; the last accumulator word releases the lock,
and the last word answers the read. In LINEAR format with 16 times the mean light of the bin, rounded down and clamped,
or 0 where it is dark; in LEVEL with its level, or the NO LIGHT code; in PACKED with two levels in centi-dB, rounded to
the nearest with halves to even or toward zero and clamped, or -32,768 where there is none; in DEVIATION with the point's
level less its baseline word, clamped, or the codes ABSENT and NO LIGHT. A clamp sets SQUEEZED (R99, R106, R107, R108,
R160, R161, R162). -/
def Obligations.ViewFetchGranted : Prop :=
  ∀ (a : Access) (f : ViewFields) (shots count : Nat) (words : List Word) (s : State), EventReady s → TraceSettled s →
    s.trace.view = some ⟨a, .fetching f shots words⟩ → decision s = some (.viewFetch, count) →
    (∀ w ∈ fetchPlan f (viewWord a), w.1 < 0x1000000) →
    ∀ addr dflt, (fetchPlan f (viewWord a))[words.length]? = some (addr, dflt) →
    let j := viewWord a
    let w := readWord s.mem addr
    let got := words ++ [w]
    let light (ws : List Word) (bin : Nat) : Int := ((ws.map BitVec.toNat).sum : Int) - (bin * f.dark * shots : Nat)
    let answers (data : Word) (lock : LockState) (clamped : Bool) : Prop :=
      0 < shots → s.accum.queue = [] → exec .viewFetchGrant s = .next (report { s with
        path.passCount := count
        path.readData := data
        accum.lock := s.accum.lock.set f.slot lock
        trace.view := none
        trace.squeezed := s.trace.squeezed || clamped })
    (words.length + 1 < accWords f j →
      exec .viewFetchGrant s = .next (report { s with
        path.passCount := count
        trace.view := some ⟨a, .fetching f shots got⟩ })) ∧
    (f.format = .linear → words.length + 1 = f.bin →
      let d := light got f.bin
      let v : Int := 16 * d / (f.bin * shots : Nat)
      answers (BitVec.ofInt 32 (if d ≤ 0 then 0 else min 2147483647 v)) .free (decide (0 < d ∧ 2147483647 < v))) ∧
    (f.format = .level → words.length + 1 = f.bin →
      let d := light got f.bin
      answers (BitVec.ofInt 32 (if d ≤ 0 then -2147483647 else level d.toNat f.bin shots)) .free false) ∧
    (f.format = .packed → words.length + 1 = (fetchPlan f j).length →
      let centi (l : Int) : Int :=
        if f.towardZero then l.tdiv 10 else if l % 10 = 5 then 2 * ((l / 10 + 1) / 2) else (l + 5) / 10
      let lit (p : Nat) (ws : List Word) : Prop := p < f.count ∧ 0 < light ws f.bin
      let exact (ws : List Word) : Int := centi (level (light ws f.bin).toNat f.bin shots)
      let half (p : Nat) (ws : List Word) : BitVec 16 :=
        BitVec.ofInt 16 (if lit p ws then max (-32767) (min 32767 (exact ws)) else -32768)
      let clamps (p : Nat) (ws : List Word) : Prop := lit p ws ∧ (exact ws < -32767 ∨ 32767 < exact ws)
      answers (half (2 * j + 1) (got.drop f.bin) ++ half (2 * j) (got.take f.bin)) .free
        (decide (clamps (2 * j) (got.take f.bin) ∨ clamps (2 * j + 1) (got.drop f.bin)))) ∧
    (f.format = .deviation → words = [] → s.accum.queue = [] →
      exec .viewFetchGrant s = .next (report { s with
        path.passCount := count
        accum.lock := s.accum.lock.set f.slot .free
        trace.view := some ⟨a, .fetching f shots got⟩ })) ∧
    (f.format = .deviation → ∀ acc, words = [acc] →
      let d := light [acc] 1
      let v : Int := level d.toNat 1 shots - w.toInt
      let judged : Prop := w.toInt ≠ -2147483648 ∧ 0 < d
      answers (BitVec.ofInt 32 (if w.toInt = -2147483648 then -2147483648 else if d ≤ 0 then -2147483647
          else max (-2147483646) (min 2147483647 v))) s.accum.lock[f.slot]
        (decide (judged ∧ (v < -2147483646 ∨ 2147483647 < v))))

/-! ### What the part posts -/

/-- A POST grant with no record waiting writes the first dirty status word, the sweep number before the slot status
entries before the rest of the general part, with its value in the image, and clears its mark (R156). Here no slot's
buffer holds the word. -/
def Obligations.StatusWordPosted : Prop :=
  ∀ (i : Fin 224) (count : Nat) (s : State), EventReady s → TraceIdle s → Mirrored s →
    Memory.wf s.mem = true → decision s = some (.post, count) → s.findings.queue = [] → s.findings.resetCapture = 0 →
    s.mirror.dirty[i] = true →
    (∀ j : Fin 224, s.mirror.dirty[j] = true →
      let place (w : Nat) := if w = 0 then 0 else if 32 ≤ w then w else 224 + w
      place i.val ≤ place j.val) →
    (∀ k : SlotIx, inAccBuffer s k (0xFFF900 + 4 * i.val) = false ∧ inBaseBuffer s k (0xFFF900 + 4 * i.val) = false) →
    ∃ t, exec .postGrant s = .next t ∧
      readWord t.mem (0xFFF900 + 4 * i.val) = statusWord s i.val ∧
      (∀ x, x < 0xFFF900 + 4 * i.val ∨ 0xFFF900 + 4 * i.val + 4 ≤ x → readByte t.mem x = readByte s.mem x) ∧
      t = { s with
        path.passCount := count
        mirror.dirty := s.mirror.dirty.set i false
        mem := t.mem }

/-- A POST grant writes the next word of the record at the head of the queue, at the place its first word took: a
finding at the ring entry of P, the capture record at 0xC80, a summary at 0xCA0 of the page. The last word of a finding
advances P and moves the slot's standing verdict; that of a record with a notice request makes the notice pending
(R145, R150, R153). With no record waiting it writes the next of the four words, all 0, of the invalid capture record owed
since a hard reset, at 0xC80 of the page (R105, R177). Here no slot's buffer holds the word. That the completed finding
clears the slot's unposted flag also where a later finding was deferred meanwhile, that a later finding handed on is the
one in flight, that the words owed are written before the status words, and that a record that joins the queue is written
before what is left of them, are the model's readings (log entries 9, 11, 12, 43). -/
def Obligations.RecordWordPosted : Prop :=
  (∀ (count : Nat) (s : State), EventReady s → TraceIdle s → Mirrored s → Memory.wf s.mem = true →
    decision s = some (.post, count) → s.findings.queue = [] → 0 < s.findings.resetCapture →
    s.findings.resetCapture ≤ 4 →
    let a := 0xFFFC80 + 4 * (4 - s.findings.resetCapture)
    (∀ k : SlotIx, inAccBuffer s k a = false ∧ inBaseBuffer s k a = false) →
    ∃ t, exec .postGrant s = .next t ∧ readWord t.mem a = 0 ∧
      (∀ x, x < a ∨ a + 4 ≤ x → readByte t.mem x = readByte s.mem x) ∧
      t = { s with
        path.passCount := count
        findings.resetCapture := s.findings.resetCapture - 1
        mem := t.mem }) ∧
  ∀ (r : QRecord) (rest : List QRecord) (count base : Nat) (w : Word) (s : State), EventReady s → TraceIdle s →
    Memory.wf s.mem = true → decision s = some (.post, count) → s.findings.queue = r :: rest →
    base = (if s.findings.headWord ≠ 0 then s.findings.headBase else
      match r with
      | .finding _ => headerRingBase (activeHeader s) + s.findings.post.toNat % ringCapacity s * 16
      | .capture _ _ => 0xFFFC80
      | .summary _ _ => 0xFFFCA0) →
    (recordWords r)[s.findings.headWord]? = some w → base + 4 * s.findings.headWord < 0x1000000 →
    (∀ k : SlotIx, inAccBuffer s k (base + 4 * s.findings.headWord) = false ∧
      inBaseBuffer s k (base + 4 * s.findings.headWord) = false) →
    ∃ t, exec .postGrant s = .next t ∧
      readWord t.mem (base + 4 * s.findings.headWord) = w ∧
      (∀ x, x < base + 4 * s.findings.headWord ∨ base + 4 * s.findings.headWord + 4 ≤ x →
        readByte t.mem x = readByte s.mem x) ∧
      (s.findings.headWord + 1 < (recordWords r).length →
        t.findings = { s.findings with headWord := s.findings.headWord + 1, headBase := base } ∧
          t.verdict = s.verdict) ∧
      (s.findings.headWord + 1 = (recordWords r).length →
        t.findings.queue = rest ∧ t.findings.headWord = 0 ∧
        (∀ f, r = .finding f → t.findings.post = s.findings.post + 1 ∧
          t.findings.fill = min (ringCapacity s) (s.findings.fill + 1) ∧
          t.verdict.table[f.slot].kind = f.newKind ∧ t.verdict.table[f.slot].location = f.location ∧
          t.verdict.table[f.slot].magnitude = f.magnitude ∧ t.verdict.table[f.slot].unposted = false ∧
          (s.verdict.table[f.slot].inFlight = some f → t.verdict.table[f.slot].inFlight = none) ∧
          (∀ k, k ≠ f.slot → t.verdict.table[k] = s.verdict.table[k])) ∧
        (∀ c n, r = .capture c n → t.findings.captureNotice = (s.findings.captureNotice || n) ∧
          t.findings.post = s.findings.post ∧ t.verdict = s.verdict) ∧
        (∀ sm n, r = .summary sm n → t.findings.sweepEndNotice = (s.findings.sweepEndNotice || n) ∧
          t.findings.post = s.findings.post ∧ t.verdict = s.verdict)) ∧
      t.findings.taken = s.findings.taken ∧ t.findings.seq = s.findings.seq ∧ t.plan = s.plan ∧ t.seq = s.seq ∧
      t.opt = s.opt ∧ t.intake = s.intake ∧ t.accum = s.accum ∧ t.trace = s.trace ∧
      t.path = { s.path with passCount := count } ∧ t.pins = s.pins

/-- The ALERT line (R154). -/
def Obligations.AlertLineFollows : Prop :=
  (∀ s : State, alertLine s = true ↔
    (headerFindingsEnable (activeHeader s) = true ∧ 0 < occupancy s) ∨
    (headerSweepEndEnable (activeHeader s) = true ∧ s.findings.sweepEndNotice = true) ∨
    (headerCaptureEnable (activeHeader s) = true ∧ s.findings.captureNotice = true)) ∧
  ∀ s t : State, exec .hardReset s = .next t → alertLine t = false

/-! ### Lines and timers -/

/-- The gate's deassertion in SWEEPING: the slot in the acquisition lane is abandoned, its source left to the warm hold,
and the slot in the comparison lane goes on; with no slot there the sweep ends QUIET in WAITING (R38, R39, R52). -/
def Obligations.GateEndsSweep : Prop :=
  ∀ s : State, EventReady s → s.trace.view = none → TraceSettled s → s.pins.gate = true → s.seq.state = .sweeping →
    s.seq.quietEnd = false →
    (∀ l c, s.seq.acq = some l → s.seq.comp = some c →
      ∃ t, exec .quietHoursGateDeasserted s = .next t ∧ t.pins = { s.pins with gate := false } ∧
        t.seq = { s.seq with acq := none, quietEnd := true } ∧
        t.intake = { s.intake with outstanding := [], buffer0 := .free, buffer1 := .free, framing := none } ∧
        t.accum.queue = [] ∧ t.accum.add = none ∧ t.accum.ready = s.accum.ready.set l.slot false ∧
        t.path.guards = s.path.guards.filter (fun g => !(g.holder = .run && g.slot = l.slot)) ∧
        t.opt.settleTimer = none ∧ t.opt.spacingTimer = none ∧ t.opt.testActive = false ∧ t.opt.port = s.opt.port ∧
        (let src := recSource (activeRecord s l.slot)
         (headerWarmHold (activeHeader s) ≠ 0 → t.opt.warm = s.opt.warm ∧
           t.opt.warmHoldTimer = some ⟨src, headerWarmHold (activeHeader s)⟩) ∧
         (headerWarmHold (activeHeader s) = 0 → sourceState t src.toNat = .cold)) ∧
        t.plan = s.plan ∧ t.trace = s.trace ∧ t.verdict = s.verdict ∧ t.findings = s.findings ∧ t.mem = s.mem) ∧
    (s.seq.comp = none → s.seq.orderEnded = false →
      ∃ t, exec .quietHoursGateDeasserted s = .next t ∧ t.pins = { s.pins with gate := false } ∧
        t.seq.state = .waiting ∧ SweepEnded .quiet s t)

/-- The live-light guard asserted ends the firing of a slot in FIRING or RESTING with result LIVE; deasserted it lets a
slot in FIRING fire (R55, R56, R80, R93). -/
def Obligations.LiveLightActs : Prop :=
  ∀ (k : SlotIx) (s : State), EventReady s →
    (s.pins.liveLight = false → shootingSlot s = some k → s.seq.comp ≠ none → s.trace.view = none → TraceSettled s →
      ∃ t, exec .liveLightGuardAsserted s = .next t ∧ RunEnded k .live s t ∧
        t.pins = { s.pins with liveLight := true }) ∧
    (s.pins.liveLight = true → s.pins.gate = true → s.opt.spacingTimer = none → FireReady k s → DutyLeft k s →
      ∃ t, exec .liveLightGuardDeasserted s = .next t ∧ ShotFired k s t ∧
        t.pins = { s.pins with liveLight := false })

/-- A line event that finds nothing to act on changes the level of its line alone: the gate's assertion outside WAITING
with no slot in FIRING, its deassertion outside SWEEPING or in a quiet end, the guard's assertion with no slot in FIRING
or RESTING and its deassertion with none in FIRING, and a trigger edge that does not count (R26, R27, R38, R55, R56). An
assertion of an asserted line, and the reverse, change nothing (log entry 3). -/
def Obligations.LinesElsewhere : Prop :=
  ∀ s : State, EventReady s → Settled s →
    (s.pins.gate = false → s.seq.state ≠ .waiting → (∀ l, s.seq.acq = some l → l.phase ≠ .firing) →
      exec .quietHoursGateAsserted s = .next (report { s with pins.gate := true })) ∧
    (s.pins.gate = true → (s.seq.state = .sweeping → s.seq.quietEnd = true) →
      exec .quietHoursGateDeasserted s = .next (report { s with pins.gate := false })) ∧
    (s.pins.liveLight = false → shootingSlot s = none →
      exec .liveLightGuardAsserted s = .next (report { s with pins.liveLight := true })) ∧
    (s.pins.liveLight = true → (∀ l, s.seq.acq = some l → l.phase ≠ .firing) →
      exec .liveLightGuardDeasserted s = .next (report { s with pins.liveLight := false })) ∧
    (∀ e : EdgeSense, (s.seq.state = .waiting → headerMode (activeHeader s) = .triggered → s.pins.gate = true →
        e ≠ headerTriggerEdge (activeHeader s)) →
      exec (.triggerEdge e) s = .next (report { s with pins.trigger := decide (e = .rising) })) ∧
    (s.pins.gate = true → exec .quietHoursGateAsserted s = .next s) ∧
    (s.pins.gate = false → exec .quietHoursGateDeasserted s = .next s) ∧
    (s.pins.liveLight = true → exec .liveLightGuardAsserted s = .next s) ∧
    (s.pins.liveLight = false → exec .liveLightGuardDeasserted s = .next s)

/-- A hard reset puts every block in its reset state whatever it did, keeps memory and the levels of the other lines,
and leaves the accesses in hand waiting (log entry 34); the reset line's deassertion lets the part begin in OFF (R2, R22,
R46, R49, R64, R84, R105, R130, R131, R148, R156, R166, R169, R173, R175, R177, R178). The four words of the invalid
capture record are owed in a field of the model's own (log entry 9). Five fields to which the spec gives no reset value
are left free: the recorded mode (log entry 7), the first-fire mark of a run and the place of a record under way, which
are set as a run and a record begin, the word last answered upstream (log entry 15) and the count of strobe pulses (log
entry 16). -/
def Obligations.ResetLine : Prop :=
  ∀ s : State,
    (∃ t, exec .hardReset s = .next t ∧
      (t.plan.pendingCopy = t.plan.activeCopy ∧ t.plan.activeCopy.zones = Vector.replicate 128 0 ∧
        t.plan.activeCopy.records = Vector.replicate 24 (Vector.replicate 16 0) ∧
        t.plan = ⟨t.plan.pendingCopy, t.plan.activeCopy, false, false, Vector.replicate 24 false, false, false,
          ⟨0, 0, .none⟩, Vector.replicate 24 false⟩) ∧
      (let h := activeHeader t
       headerMode h = .once ∧ headerDutyPeriod h = 1000 ∧ headerSwitchSettle h = 20 ∧ headerFailureLimit h = 8 ∧
       headerDutyLimit h 0 = 10000 ∧ headerDutyLimit h 1 = 10000 ∧ headerDutyLimit h 2 = 10000 ∧
       headerWarmHold h = 5000 ∧ headerWarmUp h 0 = 500 ∧ headerWarmUp h 1 = 500 ∧ headerWarmUp h 2 = 500 ∧
       headerShotTimeout h = 1000 ∧ headerRingBase h = 0 ∧ headerRingCapacity h = 16 ∧ headerViewStep h = 1 ∧
       headerViewBin h = 1 ∧ headerViewStart h = 0 ∧ headerViewFormat h = .linear ∧ headerViewSlot h = 0 ∧
       headerTowardZero h = false ∧ headerPauseOnRestart h = false ∧ headerStopping h = CondSet.empty ∧
       headerTriggerEdge h = .rising ∧ headerFirstFire h = false ∧ headerLastAccepted h = false ∧
       headerAssertedLow h = false ∧ holdFlag t = false ∧ headerFindingsEnable h = true ∧
       headerSweepEndEnable h = true ∧ headerCaptureEnable h = true) ∧
      t.seq = ⟨.off, 0, t.seq.mode, none, none, 0, false, false, false, Vector.replicate 24 .notInSweep⟩ ∧
      t.opt = ⟨63, false, none, ⟨.cold, .cold, .cold⟩, none, none, none, ⟨0, 0, 0⟩, none, 0, t.opt.fired, false, 0, 0, 0,
        t.opt.strobes⟩ ∧ sourceSelectLine t = 3 ∧ testActiveLine t = false ∧
      t.intake = ⟨[], .free, .free, none, 0, Vector.replicate 24 0, Vector.replicate 24 0, Vector.replicate 24 0,
        Vector.replicate 24 .none, false⟩ ∧
      t.accum = ⟨[], none, Vector.replicate 24 .free, Vector.replicate 24 false, Vector.replicate 24 false⟩ ∧
      t.trace = ⟨CondSet.empty, none, false, Vector.replicate 24 false, Vector.replicate 24 CondSet.empty,
        Vector.replicate 24 0, none, false, none⟩ ∧
      t.verdict = ⟨Vector.replicate 24 ⟨false, .unknown, 0, 0, false, none⟩, Vector.replicate 24 .notEntered,
        Vector.replicate 24 none⟩ ∧
      t.findings = ⟨0, 0, 0, 0, [], 0, t.findings.headBase, 4, false, false, false, false, 0, 0⟩ ∧
      t.path = ⟨none, 0, [], false, false, inHand s ++ s.path.waiting, t.path.readData⟩ ∧
      (∀ i : Fin 224, t.mirror.dirty[i] = true ∧ t.mirror.image[i] = statusWord t i.val) ∧
      t.mem = s.mem ∧ t.pins = { s.pins with resetAsserted := true } ∧ t.pending = s.pending ∧
      t.freeIndex = s.freeIndex) ∧
    (s.pins.resetAsserted = true → s.path.waiting = [] →
      exec .resetDeasserted s = .next (report { s with pins.resetAsserted := false }))

/-- The expiries that end no SETTLING and let no slot fire: the port is SETTLED, while the source of the slot in SETTLING
warms up; a source turns WARM, while the port is UNSETTLED; the held source turns COLD and no other changes; the duty
counts clear and a new period begins, and the spacing is elapsed, where a slot in FIRING is held by another condition. A
timer that does not run expires without effect (R47, R49, R51, R52, R56, R58, R59; log entry 3). -/
def Obligations.TimersExpire : Prop :=
  ∀ s : State, EventReady s → Settled s →
    ((∀ k, s.seq.acq = some ⟨k, .settling⟩ → warmOf s (recSource (activeRecord s k)) ≠ .warm) →
      s.opt.settleTimer ≠ none →
      exec .settleTimerExpiry s = .next (report { s with opt.settled := true, opt.settleTimer := none })) ∧
    ((∀ k, s.seq.acq = some ⟨k, .settling⟩ → s.opt.settled = false) →
      ∀ w, s.opt.warmUpTimer = some w →
        ∃ t, exec .warmUpExpiry s = .next t ∧ t.opt.warmUpTimer = none ∧
          (∀ j < 3, sourceState t j = if j = w.source.toNat then .warm else sourceState s j) ∧
          t = { s with opt.warm := t.opt.warm, opt.warmUpTimer := none, mirror := t.mirror }) ∧
    (∀ w, s.opt.warmHoldTimer = some w →
      ∃ t, exec .warmHoldExpiry s = .next t ∧ t.opt.warmHoldTimer = none ∧
        (∀ j, sourceState t j = if j = w.source.toNat then .cold else sourceState s j) ∧
        t = { s with
          opt.warm := t.opt.warm
          opt.warmUpTimer := t.opt.warmUpTimer
          opt.warmHoldTimer := none
          mirror := t.mirror }) ∧
    ((∀ k, FireReady k s → s.pins.gate = false ∨ s.pins.liveLight = true) → s.opt.spacingTimer ≠ none →
      exec .shotSpacingExpiry s = .next (report { s with opt.spacingTimer := none })) ∧
    ((∀ k, FireReady k s → s.opt.spacingTimer ≠ none ∨ s.pins.gate = false ∨ s.pins.liveLight = true) →
      (∀ l, s.seq.acq = some l → l.phase ≠ .resting) → s.opt.dutyTimer ≠ none →
      exec .dutyPeriodEnd s = .next (report { s with
        opt.dutyCount := ⟨0, 0, 0⟩
        opt.dutyTimer := some (headerDutyPeriod (activeHeader s)) })) ∧
    (s.opt.settleTimer = none → exec .settleTimerExpiry s = .next (report s)) ∧
    (s.opt.warmUpTimer = none → exec .warmUpExpiry s = .next (report s)) ∧
    (s.opt.warmHoldTimer = none → exec .warmHoldExpiry s = .next (report s)) ∧
    (s.opt.spacingTimer = none → exec .shotSpacingExpiry s = .next (report s)) ∧
    (s.opt.dutyTimer = none → exec .dutyPeriodEnd s = .next (report s))

/-- SETTLING ends when the port is SETTLED and the source WARM, whichever expires last: with the guard deasserted the
slot enters FIRING, where the firing conditions are tested in the same step (log entry 14), so that it fires, or enters
RESTING where the duty limit alone stops it; with the guard asserted it waits with result LIVE (R47, R49, R51, R54, R56,
R57, R60). -/
def Obligations.SettlingEnds : Prop :=
  ∀ (k : SlotIx) (s : State), EventReady s → TraceIdle s → s.seq.state = .sweeping →
    s.seq.acq = some ⟨k, .settling⟩ →
    let src := recSource (activeRecord s k)
    let ends (c : Instr) (u : State) : Prop :=
      (OnlyDutyStops k u →
        (DutyLeft k u → ∃ t, exec c s = .next t ∧ ShotFired k u t ∧ t.pins = s.pins) ∧
        (¬ DutyLeft k u → ∃ t, exec c s = .next t ∧ t.seq = { s.seq with acq := some ⟨k, .resting⟩ } ∧
          t.intake = s.intake ∧ t.opt = u.opt ∧ t.pins = s.pins)) ∧
      (s.pins.liveLight = true → s.seq.comp ≠ none →
        ∃ t, exec c s = .next t ∧ t.seq = { s.seq with acq := some ⟨k, .awaiting .live⟩ } ∧ t.intake = s.intake ∧
          t.opt.settled = true ∧ warmOf t src = .warm ∧ t.opt.spacingTimer = none)
    (s.opt.settleTimer ≠ none → warmOf s src = .warm →
      ends .settleTimerExpiry { s with
        seq.acq := some ⟨k, .firing⟩
        opt.settled := true
        opt.settleTimer := none }) ∧
    (∀ w, s.opt.warmUpTimer = some w → w.source = src → src ≠ 3 → s.opt.settled = true →
      ends .warmUpExpiry { s with
        seq.acq := some ⟨k, .firing⟩
        opt.warm := sourceSet s.opt.warm src .warm
        opt.warmUpTimer := none })

/-- The firing conditions tested, with the gate asserted and the guard not: when the shot spacing elapses, a slot in
FIRING fires, or enters RESTING where the duty limit alone stops it; at the end of the duty period a slot in RESTING
returns to FIRING with every duty count 0, and fires in the same step (R56, R57, R59, R60). -/
def Obligations.FiringTested : Prop :=
  ∀ (k : SlotIx) (s : State), EventReady s → TraceIdle s →
    (s.opt.spacingTimer ≠ none → OnlyDutyStops k { s with opt.spacingTimer := none } →
      (DutyLeft k s → ∃ t, exec .shotSpacingExpiry s = .next t ∧ ShotFired k s t ∧ t.pins = s.pins) ∧
      (¬ DutyLeft k s → ∃ t, exec .shotSpacingExpiry s = .next t ∧
        t.seq = { s.seq with acq := some ⟨k, .resting⟩ } ∧ t.intake = s.intake ∧
        t.opt = { s.opt with spacingTimer := none } ∧ t.pins = s.pins)) ∧
    (s.seq.acq = some ⟨k, .resting⟩ → s.opt.dutyTimer ≠ none →
      let u : State := { s with
        seq.acq := some ⟨k, .firing⟩
        opt.dutyCount := ⟨0, 0, 0⟩
        opt.dutyTimer := some (headerDutyPeriod (activeHeader s)) }
      OnlyDutyStops k u → 0 < headerDutyLimit (activeHeader s) (recSource (activeRecord s k)) →
      ∃ t, exec .dutyPeriodEnd s = .next t ∧ ShotFired k u t ∧ t.pins = s.pins)

/-! ### Results and verdicts -/

/-- The result of a slot in POSTING with no honoured partner is taken: the slot leaves the comparison lane, its outcome
is recorded and its guard lifted; a finding that is due is queued with the finding sequence where the ring has room, and
deferred with the unposted flag and the ring-full flag set where it has none; one that is not due clears the unposted
flag. A slot in AWAITING COMPARE then moves to the comparison lane with what it holds, and the acquisition lane is offered
to the slot at the cursor: it takes the lane, or ends the slot order where it is disabled, or takes PLAN FAULT where it
fails the plan check, the offer passing at once to the next slot; its partner-ignored flag takes the judgement of its
partner field, and a cursor of 24 ends the order. With the acquisition lane empty and the slot order ended, the sweep ends
COMPLETE (R16, R17, R30, R32, R33, R35, R36, R52, R62, R101, R120, R136, R142 to R145, R149). What a queued finding does
to the finding in flight and the unposted flag is the model's reading (log entries 11, 42). -/
def Obligations.ResultTaken : Prop :=
  ∀ (k : SlotIx) (r : Result) (s : State), EventReady s → s.seq.comp = some ⟨k, .posting r⟩ →
    s.verdict.judgements[k] = .unpaired →
    (∀ l, TraceIdle s → s.seq.acq = some l → (∀ h, l.phase ≠ .awaiting h) →
      ∃ t, exec .takeResult s = .next t ∧ ResultOff k r s t ∧ VerdictPosted k (unpairedVerdict r) s t) ∧
    (∀ j held, s.seq.state = .sweeping → s.trace.view = none → s.trace.bg = none →
      s.seq.acq = some ⟨j, .awaiting held⟩ →
      let rec' := activeRecord s j
      let src := recSource rec'
      let runs := held = .accumulation ∧ s.verdict.table[j].based = true
      let stops := s.trace.clipNote[j] && (headerStopping (activeHeader s)).clipped
      let moved (t : State) : Prop := exec .takeResult s = .next t ∧
        (held = .live → t.seq.comp = some ⟨j, .posting (plainOf .live .none s.seq.sweepNumber)⟩) ∧
        (held = .faultedSampler → t.seq.comp = some ⟨j, .posting (plainOf .faulted .sampler s.seq.sweepNumber)⟩) ∧
        (held = .accumulation → s.verdict.table[j].based = false →
          t.seq.comp = some ⟨j, .posting (plainOf .unbased .none s.seq.sweepNumber)⟩) ∧
        (¬ runs → t.trace.bg = none) ∧
        (runs → stops = false → t.seq.comp = some ⟨j, .comparing⟩ ∧
          ∃ b, t.trace.bg = some b ∧ b.op = .compareRun ∧ b.slot = j ∧ b.shots = s.intake.accepted[j] ∧
            b.record = rec' ∧ b.point = recCompareStart rec' ∧ b.stopping = headerStopping (activeHeader s) ∧
            b.acc = none ∧ b.masked = ⟨false, false, s.trace.clipNote[j]⟩ ∧ b.cmp = Comparison.start) ∧
        (runs → stops = true → t.trace.bg = none ∧
          ∃ q, t.seq.comp = some ⟨j, .posting q⟩ ∧ q.kind = .faulted ∧ q.reason = .condition ∧ q.location = 0 ∧
            (s.trace.capture = none →
              t.trace.capture = some ⟨.compareRun, j, s.seq.sweepNumber, 0, .clipped⟩)) ∧
        t.mem = s.mem ∧ t.pins = s.pins
      (runs → recCompareStart rec' ≤ recCompareEnd rec' ∧ recAccBase rec' + 4 * recCompareStart rec' < 0x1000000) →
      ((s.seq.orderEnded || s.seq.quietEnd) = true →
        ∃ t, moved t ∧ (runs ∧ stops = true ∨ VerdictPosted k (unpairedVerdict r) s t) ∧
          t.seq = { s.seq with
            acq := none
            comp := t.seq.comp
            outcomes := s.seq.outcomes.set k (takenOutcome r) } ∧
          (headerWarmHold (activeHeader s) ≠ 0 → t.opt = { s.opt with
            testActive := false
            warmHoldTimer := some ⟨src, headerWarmHold (activeHeader s)⟩ }) ∧
          (headerWarmHold (activeHeader s) = 0 → sourceState t src.toNat = .cold ∧ t.opt.testActive = false)) ∧
      (s.seq.orderEnded = false → s.seq.quietEnd = false →
        let undirtied (n : SlotIx) : Prop := holdFlag s = true ∨ s.plan.recordDirty[n] = false
        let disabled (n : SlotIx) : Prop := undirtied n ∧ recEnable (activeRecord s n) = false
        let fails (n : SlotIx) : Prop := undirtied n ∧ recEnable (activeRecord s n) = true ∧ planCheck s n = false
        let judged (l : List SlotIx) (t : State) : Prop :=
          t.plan = { s.plan with partnerIgnored := t.plan.partnerIgnored } ∧
          ∀ i : SlotIx, t.plan.partnerIgnored[i] = true ↔
            if i ∈ l then PartnerIgnored s i else s.plan.partnerIgnored[i] = true
        let enters (n : SlotIx) (outcomes : Vector SlotOutcome 24) (t : State) : Prop :=
          t.opt.port = recPort (activeRecord s n) ∧ t.intake.accepted[n] = 0 ∧
          ⟨.run, n, recAccBase (activeRecord s n), recPoints (activeRecord s n)⟩ ∈ t.path.guards ∧
          t.seq = { s.seq with
            acq := some ⟨n, .settling⟩
            comp := t.seq.comp
            cursor := n.val + 1
            entered := true
            outcomes := outcomes.set n .notRun }
        let closes (cursor : Nat) (outcomes : Vector SlotOutcome 24) (t : State) : Prop :=
          t.seq = { s.seq with
            acq := none
            comp := t.seq.comp
            cursor := cursor
            orderEnded := true
            outcomes := outcomes }
        let outcomes := s.seq.outcomes.set k (takenOutcome r)
        (s.seq.cursor = 24 → ∃ t, moved t ∧ judged [] t ∧ closes 24 outcomes t) ∧
        ∀ n : SlotIx, s.seq.cursor = n.val →
          (NextSlotSettles n s → ∃ t, moved t ∧ judged [n] t ∧ enters n outcomes t) ∧
          (disabled n → ∃ t, moved t ∧ judged [] t ∧ closes n.val outcomes t) ∧
          (fails n → n.val = 23 → ∃ t, moved t ∧ judged [n] t ∧ closes 24 (outcomes.set n .planFault) t) ∧
          ∀ m : SlotIx, fails n → m.val = n.val + 1 →
            (NextSlotSettles m s → ∃ t, moved t ∧ judged [n, m] t ∧ enters m (outcomes.set n .planFault) t) ∧
            (disabled m → ∃ t, moved t ∧ judged [n] t ∧ closes m.val (outcomes.set n .planFault) t))) ∧
    (TraceIdle s → s.trace.view = none → PlanSettled s → s.seq.state = .sweeping → s.seq.acq = none →
      s.seq.orderEnded = true →
      let ends (st : SeqState) : Prop := ∃ t, exec .takeResult s = .next t ∧ SweepCompleted k r s t ∧ t.seq.state = st
      (s.seq.mode = .once → ends .idle) ∧
      (s.seq.mode = .loop → s.seq.entered = true → s.pins.gate = false → ends .waiting) ∧
      (s.seq.mode = .loop → s.seq.entered = false → ends .idle) ∧
      (s.seq.mode = .triggered → headerMode (activeHeader s) = .triggered → ends .waiting) ∧
      (s.seq.mode = .loop → s.seq.entered = true → s.pins.gate = true → s.plan.ringFault = false →
        NextSlotSettles 0 s →
        ∃ t, exec .takeResult s = .next t ∧ t.seq.state = .sweeping ∧ t.seq.sweepNumber = s.seq.sweepNumber + 1 ∧
          t.seq.acq = some ⟨0, .settling⟩ ∧ t.seq.comp = none ∧ t.seq.cursor = 1 ∧
          t.seq.mode = headerMode (activeHeader s) ∧
          t.seq.outcomes = (Vector.replicate 24 SlotOutcome.notInSweep).set 0 .notRun ∧
          ∃ sm n, .summary sm n ∈ t.findings.queue ∧ sm.sweep = s.seq.sweepNumber ∧ sm.reason = .complete ∧
            sm.empty = false ∧ sm.outcomes = s.seq.outcomes.set k (takenOutcome r)))

/-- Two pair inputs of a FORMED pair resolved against each other (R140): what each slot posts, and that both inputs
become FINAL with their own location and magnitude. The result of a slot with an honoured partner taken: a LOSS CANDIDATE
is stored PENDING, with nothing posted, while the partner has yet to enter or has no input (R138); a CLEAR, REFLECTION,
BREAK or ANOMALY is stored FINAL and posted by itself where no input of the partner is PENDING (R137); where the result
meets the partner's input, both are resolved in the same step, the short slot's posting first (R135, R137, R138, R140);
and an UNBASED, LIVE or FAULTED result, and any result whose partner's entry broke the pair, is posted by itself with
nothing stored (R136, R138, R146). That an input holds the masked-condition flag (log entry 20), that its kind becomes the
one its slot posts (log entry 33), and what a queued finding does to the finding in flight and the unposted flag (log
entries 11, 42) are the model's readings. -/
def Obligations.PairResolved : Prop :=
  (∀ (x y : PairInput) (tolerance ratio : Nat),
    let within := x.location ≤ y.location + tolerance ∧ y.location ≤ x.location + tolerance
    let bends := ratio * x.magnitude.natAbs ≤ y.magnitude.natAbs * 16
    let own (k : Kind) := k = .reflection ∨ k = .brk ∨ k = .anomaly
    (x.kind = .lossCandidate → y.kind = .lossCandidate →
      pairKinds x y tolerance ratio =
        if within ∧ bends then (some .bend, some .bend) else (some .loss, some .loss)) ∧
    (x.kind = .clear → y.kind = .lossCandidate → pairKinds x y tolerance ratio = (none, some .bend)) ∧
    (x.kind = .lossCandidate → y.kind = .clear ∨ own y.kind →
      pairKinds x y tolerance ratio = (some .loss, none)) ∧
    (own x.kind → y.kind = .lossCandidate → pairKinds x y tolerance ratio = (none, some .loss))) ∧
  (∀ (short long : SlotIx) (x y : PairInput) (s : State), short ≠ long →
    let kinds := pairKinds x y (recPairTolerance (activeRecord s long)) (recBendRatio (activeRecord s long))
    let u := resolvePair short long x y (fun _ => []) s
    u.verdict.inputs[short] = some { x with kind := kinds.1.getD x.kind, final := true } ∧
    u.verdict.inputs[long] = some { y with kind := kinds.2.getD y.kind, final := true } ∧
    ∀ k : SlotIx, k ≠ short → k ≠ long →
      u.verdict.inputs[k] = s.verdict.inputs[k] ∧ u.verdict.table[k] = s.verdict.table[k]) ∧
  ∀ (k p : SlotIx) (r : Result) (l : AcqLane) (s : State), EventReady s → TraceIdle s →
    s.seq.comp = some ⟨k, .posting r⟩ → s.seq.acq = some l → (∀ h, l.phase ≠ .awaiting h) →
    s.verdict.judgements[k] = .names p → k ≠ p →
    let candidate := r.kind = .lossCandidate
    let stored := r.kind = .clear ∨ r.kind = .reflection ∨ r.kind = .brk ∨ r.kind = .anomaly
    let opens := s.verdict.judgements[p] = .notEntered
    let formed := s.verdict.judgements[p] = .names k
    let x : PairInput :=
      ⟨r.kind, r.location, r.magnitude, decide stored, r.masked.saturated || r.masked.gap || r.masked.clipped⟩
    let withInput : State := { s with verdict.inputs := s.verdict.inputs.set k (some x) }
    (candidate → opens ∨ formed ∧ s.verdict.inputs[p] = none →
      ∃ t, exec .takeResult s = .next t ∧ ResultOff k r s t ∧ t.verdict = withInput.verdict ∧
        t.findings = s.findings) ∧
    (stored → opens ∨ formed ∧ (∀ y, s.verdict.inputs[p] = some y → y.final = true) →
      ∃ t, exec .takeResult s = .next t ∧ ResultOff k r s t ∧ VerdictPosted k (unpairedVerdict r) withInput t) ∧
    ((¬ candidate ∧ ¬ stored) ∨ (¬ opens ∧ ¬ formed) →
      ∃ t, exec .takeResult s = .next t ∧ ResultOff k r s t ∧ VerdictPosted k (unpairedVerdict r) s t) ∧
    (∀ y, formed → s.verdict.inputs[p] = some y → candidate ∨ stored ∧ y.final = false →
      let first := (recSource (activeRecord s k)).toNat < (recSource (activeRecord s p)).toNat
      let short := if first then k else p
      let long := if first then p else k
      let xs := if first then x else y
      let xl := if first then y else x
      let kinds := pairKinds xs xl (recPairTolerance (activeRecord s long)) (recBendRatio (activeRecord s long))
      let final (z : PairInput) (kind : Option Kind) : Option PairInput :=
        some { z with kind := kind.getD z.kind, final := true }
      let posts (j : SlotIx) (z : PairInput) (kind : Option Kind) : Option Verdict :=
        if j = k ∧ ¬ candidate then some (unpairedVerdict r) else kind.map (pairedVerdict z s.seq.sweepNumber)
      let u : State := { s with
        verdict.inputs := (s.verdict.inputs.set short (final xs kinds.1)).set long (final xl kinds.2) }
      ∃ m t, exec .takeResult s = .next t ∧ ResultOff k r s t ∧
        m = { u with verdict := m.verdict, findings := m.findings } ∧
        PostedIf short (posts short xs kinds.1) u m ∧ PostedIf long (posts long xl kinds.2) m t)

/-! ### Arithmetic -/

/-- The level of a mean light is the integer nearest 5000 log10 m, which is never halfway between two; an over-range
mean light is taken as 65,535; levels lie in the stated bounds, those with b = 1 in the narrower ones (R97). -/
def Obligations.LevelIsNearest : Prop :=
  (∀ num den : Nat, 0 < num → 0 < den → num ≤ 65535 * den → den ≤ 16777200 * num →
    |5000 * Real.logb 10 ((num : ℝ) / den) - levelOf num den| ≤ 1 / 2 ∧
    -36124 ≤ levelOf num den ∧ levelOf num den ≤ 24082) ∧
  (∀ num den : Nat, 0 < num → 0 < den → ∀ n : Int, 5000 * Real.logb 10 ((num : ℝ) / den) ≠ n + 1 / 2) ∧
  (∀ d b shots : Nat, level d b shots =
    if 65535 * (b * shots) < d then levelOf 65535 1 else levelOf d (b * shots)) ∧
  (∀ d shots : Nat, 0 < d → 0 < shots → shots ≤ 1048575 →
    -30103 ≤ level d 1 shots ∧ level d 1 shots ≤ 24082) ∧
  levelOf 65535 1 = 24082 ∧ levelOf 1 16777200 = -36124 ∧ levelOf 1 1048575 = -30103 ∧
  levelOf 1 2 = -1505 ∧ levelOf 1 1 = 0 ∧ levelOf 2 1 = 1505 ∧ levelOf 10 1 = 5000 ∧ levelOf 4600 1 = 18314

/-- The check value of a record's words is that of their bits, most significant byte and bit first, shifted into a
register preset to all ones with the generator 0x1021 (R66); over the nine bytes of the reference it is 0x29B1. -/
def Obligations.CheckValueComputed : Prop :=
  let feed (reg : BitVec 16) (b : Bool) : BitVec 16 :=
    if reg.getLsbD 15 = b then reg <<< 1 else (reg <<< 1) ^^^ 0x1021#16
  (∀ ws : List Word, ws.foldl crcWord crcPreset =
    (ws.flatMap fun w => (List.range 32).map fun i => w.getLsbD (31 - i)).foldl feed 0xFFFF#16) ∧
  [0x31, 0x32, 0x33, 0x34, 0x35, 0x36, 0x37, 0x38, 0x39].foldl crcByte crcPreset = 0x29B1#16

/-- The zone sequence and the margins of a point: those of the last entry of the sequence whose start is at or below the
point, else of the first, else 0 (R110). The class of a point by the first test that holds: SKIP where its baseline is
ABSENT; where it is dark or its level below the floor, WITHIN with the baseline below the floor too and FLOOR otherwise;
LOW with the deviation below the low margin's negative, HIGH with it above the high margin, and else WITHIN (R95, R97,
R99, R111). -/
def Obligations.MarginsOfPoint : Prop :=
  (∀ (zones : Vector Word 128) (r : Record16),
    (zoneSequence zones r).length = min (recZoneCount r) (64 - recFirstZone r) ∧
    ∀ n < recZoneCount r, ∀ h : recFirstZone r + n < 64,
      (zoneSequence zones r)[n]? = some (zoneEntry zones ⟨recFirstZone r + n, h⟩)) ∧
  (∀ (zs : List Zone) (i : Nat),
    (∀ (n : Nat) (z : Zone), zs[n]? = some z → z.start ≤ i →
        (∀ (m : Nat) (w : Zone), n < m → zs[m]? = some w → i < w.start) →
      marginsAt zs i = (z.low, z.high)) ∧
    (∀ z rest, zs = z :: rest → (∀ w ∈ zs, i < w.start) → marginsAt zs i = (z.low, z.high)) ∧
    (zs = [] → marginsAt zs i = (0, 0))) ∧
  ∀ (b : Background) (i : Nat) (acc base : Word),
    let light : Int := (acc.toNat : Int) - (recDark b.record * b.shots : Nat)
    let lev := level light.toNat 1 b.shots
    let floor := (b.record[8].extractLsb' 0 16).toInt
    let unlit := light ≤ 0 ∨ lev < floor
    let d := lev - base.toInt
    let m := marginsAt b.zones i
    (base.toInt = -2147483648 → classify b i acc base = .skip) ∧
    (base.toInt ≠ -2147483648 →
      (unlit → base.toInt < floor → classify b i acc base = .within) ∧
      (unlit → floor ≤ base.toInt → classify b i acc base = .floor) ∧
      (¬ unlit →
        (d < -(m.1 : Int) → classify b i acc base = .low) ∧
        ((m.2 : Int) < d → -(m.1 : Int) ≤ d → classify b i acc base = .high) ∧
        (-(m.1 : Int) ≤ d → d ≤ m.2 → classify b i acc base = .within)))
end

