-- ==== Sys2Proof/Laws/State.lean ====
section
/-! SUPPORT. What the named updates of the state put into the fields they change, and what the fields of an answer are.
The fields an update leaves alone are in the Laws/Frames files. -/

namespace Sys2Proof.Machine

@[simp] theorem modifySlot_self {α : Type} (v : Slots α) (k : SlotIx) (f : α → α) : (modifySlot v k f)[k] = f v[k] := by
  simp [modifySlot]

@[simp] theorem modifySlot_other {α : Type} (v : Slots α) {k j : SlotIx} (f : α → α) (h : k ≠ j) :
    (modifySlot v k f)[j] = v[j] := by
  have hv : k.val ≠ j.val := fun e => h (Fin.ext e)
  simp [modifySlot, hv]

@[simp] theorem mapSlots_get {α β : Type} (v : Slots α) (f : SlotIx → α → β) (k : SlotIx) :
    (mapSlots v f)[k] = f k v[k] := by
  simp [mapSlots]

/-! ### Machine/Ops.lean -/

@[simp] theorem placeGuard_guards (g : Guard) (s : State) : (placeGuard g s).path.guards = s.path.guards ++ [g] := rfl

@[simp] theorem setReady_ready (k : SlotIx) (v : Bool) (s : State) :
    (setReady k v s).accum.ready = s.accum.ready.set k v := rfl

@[simp] theorem setBased_table (k : SlotIx) (v : Bool) (s : State) :
    (setBased k v s).verdict.table = modifySlot s.verdict.table k fun e => { e with based := v } := rfl

/-! ### Machine/Flags.lean and Machine/PlanCapture.lean -/

/-- After a report the image shows the contents (R156). -/
@[simp] theorem report_image (s : State) :
    (report s).mirror.image = Vector.ofFn fun i : Fin 224 => statusWord s i.val := rfl

@[simp] theorem markDirty_dirty (i : Fin 224) (s : State) : (markDirty i s).mirror.dirty = s.mirror.dirty.set i true := rfl

@[simp] theorem markDirty_image (i : Fin 224) (s : State) : (markDirty i s).mirror.image = s.mirror.image := rfl

@[simp] theorem recordOutcome_lastCommand (code tag : BitVec 8) (o : CmdOutcome) (s : State) :
    (recordOutcome code tag o s).plan.lastCommand = ⟨code, tag, o⟩ := rfl

@[simp] theorem setPartnerIgnored_partnerIgnored (k : SlotIx) (s : State) :
    (setPartnerIgnored k s).plan.partnerIgnored = s.plan.partnerIgnored.set k (partnerIgnoredNow s k) := rfl

/-! ### Engines -/

@[simp] theorem setBg_bg (b : Option Background) (s : State) : (setBg b s).trace.bg = b := rfl

@[simp] theorem setLock_lock (k : SlotIx) (l : LockState) (s : State) : (setLock k l s).accum.lock = s.accum.lock.set k l := rfl

@[simp] theorem answerView_readData (w : Word × Bool) (s : State) : (answerView w s).path.readData = w.1 := rfl

@[simp] theorem answerView_view (w : Word × Bool) (s : State) : (answerView w s).trace.view = none := rfl

@[simp] theorem answerView_squeezed (w : Word × Bool) (s : State) :
    (answerView w s).trace.squeezed = (s.trace.squeezed || w.2) := rfl

@[simp] theorem clearIntake_outstanding (s : State) : (clearIntake s).intake.outstanding = [] := rfl

@[simp] theorem clearIntake_framing (s : State) : (clearIntake s).intake.framing = none := rfl

@[simp] theorem staleHeader_stray (s : State) : (staleHeader s).intake.stray = true := rfl

/-! ### Sequencer and commands -/

@[simp] theorem setOutcome_outcomes (k : SlotIx) (o : SlotOutcome) (s : State) :
    (setOutcome k o s).seq.outcomes = s.seq.outcomes.set k o := rfl

@[simp] theorem enterPosting_comp (k : SlotIx) (r : Result) (s : State) :
    (enterPosting k r s).seq.comp = some ⟨k, .posting r⟩ := rfl

@[simp] theorem restSequencer_state (st : SeqState) (s : State) : (restSequencer st s).seq.state = st := rfl

@[simp] theorem refuse_state (o : CmdOutcome) (s : State) : (refuse o s).1 = s := rfl

@[simp] theorem refuse_outcome (o : CmdOutcome) (s : State) : (refuse o s).2 = o := rfl

/-! ### Memory path and lines -/

@[simp] theorem passAccess_pass (a : Access) (s : State) : (passAccess a s).path.pass = some a := rfl

@[simp] theorem answerRead_readData (w : Word) (s : State) : (answerRead w s).path.readData = w := rfl

@[simp] theorem hitGuard_guardHit (s : State) : (hitGuard s).path.guardHit = true := rfl

@[simp] theorem setGate_gate (v : Bool) (s : State) : (setGate v s).pins.gate = v := rfl

@[simp] theorem setLiveLight_liveLight (v : Bool) (s : State) : (setLiveLight v s).pins.liveLight = v := rfl

@[simp] theorem setTrigger_trigger (e : EdgeSense) (s : State) : (setTrigger e s).pins.trigger = decide (e = .rising) := rfl

end Sys2Proof.Machine
end

