-- ==== Sys2Proof/Laws/FramesData.lean ====
section
/-! SUPPORT. Frames: which fields of the state the operations leave unchanged: those of
the shared operations, the Findings Unit, the Verdict Unit and Plan Capture.
One lemma an operation, in the order of the definitions, each used by those after it. -/

namespace Sys2Proof.Machine

/-! ### Machine/Ops.lean -/

@[simp] theorem placeGuard_frame (g : Guard) (s : State) :
    (placeGuard g s).plan = s.plan ∧ (placeGuard g s).seq = s.seq ∧ (placeGuard g s).opt = s.opt ∧
    (placeGuard g s).intake = s.intake ∧ (placeGuard g s).accum = s.accum ∧ (placeGuard g s).trace = s.trace ∧
    (placeGuard g s).verdict = s.verdict ∧ (placeGuard g s).findings = s.findings ∧
    (placeGuard g s).mirror = s.mirror ∧ (placeGuard g s).path.pass = s.path.pass ∧
    (placeGuard g s).path.passCount = s.path.passCount ∧ (placeGuard g s).path.waiting = s.path.waiting ∧
    (placeGuard g s).path.strayAccess = s.path.strayAccess ∧ (placeGuard g s).path.guardHit = s.path.guardHit ∧
    (placeGuard g s).path.readData = s.path.readData ∧ (placeGuard g s).mem = s.mem ∧
    (placeGuard g s).pins = s.pins ∧ (placeGuard g s).freeIndex = s.freeIndex ∧
    (placeGuard g s).pending = s.pending := by
  simp [placeGuard]

@[simp] theorem liftGuard_frame (holder : GuardHolder) (k : SlotIx) (s : State) :
    (liftGuard holder k s).plan = s.plan ∧ (liftGuard holder k s).seq = s.seq ∧ (liftGuard holder k s).opt = s.opt ∧
    (liftGuard holder k s).intake = s.intake ∧ (liftGuard holder k s).accum = s.accum ∧
    (liftGuard holder k s).trace = s.trace ∧ (liftGuard holder k s).verdict = s.verdict ∧
    (liftGuard holder k s).findings = s.findings ∧ (liftGuard holder k s).mirror = s.mirror ∧
    (liftGuard holder k s).path.pass = s.path.pass ∧ (liftGuard holder k s).path.passCount = s.path.passCount ∧
    (liftGuard holder k s).path.waiting = s.path.waiting ∧
    (liftGuard holder k s).path.strayAccess = s.path.strayAccess ∧
    (liftGuard holder k s).path.guardHit = s.path.guardHit ∧
    (liftGuard holder k s).path.readData = s.path.readData ∧ (liftGuard holder k s).mem = s.mem ∧
    (liftGuard holder k s).pins = s.pins ∧ (liftGuard holder k s).freeIndex = s.freeIndex ∧
    (liftGuard holder k s).pending = s.pending := by
  simp [liftGuard]

@[simp] theorem setReady_frame (k : SlotIx) (v : Bool) (s : State) :
    (setReady k v s).plan = s.plan ∧ (setReady k v s).seq = s.seq ∧ (setReady k v s).opt = s.opt ∧
    (setReady k v s).intake = s.intake ∧ (setReady k v s).accum.lock = s.accum.lock ∧
    (setReady k v s).accum.queue = s.accum.queue ∧ (setReady k v s).accum.add = s.accum.add ∧
    (setReady k v s).trace = s.trace ∧ (setReady k v s).verdict = s.verdict ∧
    (setReady k v s).findings = s.findings ∧ (setReady k v s).mirror = s.mirror ∧ (setReady k v s).path = s.path ∧
    (setReady k v s).mem = s.mem ∧ (setReady k v s).pins = s.pins ∧ (setReady k v s).freeIndex = s.freeIndex ∧
    (setReady k v s).pending = s.pending := by
  simp [setReady]

@[simp] theorem setBased_frame (k : SlotIx) (v : Bool) (s : State) :
    (setBased k v s).plan = s.plan ∧ (setBased k v s).seq = s.seq ∧ (setBased k v s).opt = s.opt ∧
    (setBased k v s).intake = s.intake ∧ (setBased k v s).accum = s.accum ∧ (setBased k v s).trace = s.trace ∧
    (setBased k v s).findings = s.findings ∧ (setBased k v s).mirror = s.mirror ∧ (setBased k v s).path = s.path ∧
    (setBased k v s).mem = s.mem ∧ (setBased k v s).pins = s.pins ∧ (setBased k v s).freeIndex = s.freeIndex ∧
    (setBased k v s).pending = s.pending := by
  simp [setBased]

@[simp] theorem snoop_frame (a : Nat) (ownAcc : Option SlotIx) (ownBase : Option SlotIx) (s : State) :
    (snoop a ownAcc ownBase s).plan = s.plan ∧ (snoop a ownAcc ownBase s).seq = s.seq ∧
    (snoop a ownAcc ownBase s).opt = s.opt ∧ (snoop a ownAcc ownBase s).intake = s.intake ∧
    (snoop a ownAcc ownBase s).accum.lock = s.accum.lock ∧ (snoop a ownAcc ownBase s).accum.queue = s.accum.queue ∧
    (snoop a ownAcc ownBase s).accum.add = s.accum.add ∧ (snoop a ownAcc ownBase s).trace = s.trace ∧
    (snoop a ownAcc ownBase s).findings = s.findings ∧ (snoop a ownAcc ownBase s).mirror = s.mirror ∧
    (snoop a ownAcc ownBase s).path = s.path ∧ (snoop a ownAcc ownBase s).mem = s.mem ∧
    (snoop a ownAcc ownBase s).pins = s.pins ∧ (snoop a ownAcc ownBase s).freeIndex = s.freeIndex ∧
    (snoop a ownAcc ownBase s).pending = s.pending := by
  simp [snoop]

/-! ### Machine/Flags.lean -/

@[simp] theorem report_frame (s : State) :
    (report s).plan = s.plan ∧ (report s).seq = s.seq ∧ (report s).opt = s.opt ∧ (report s).intake = s.intake ∧
    (report s).accum = s.accum ∧ (report s).trace = s.trace ∧ (report s).verdict = s.verdict ∧
    (report s).findings = s.findings ∧ (report s).path = s.path ∧ (report s).mem = s.mem ∧
    (report s).pins = s.pins ∧ (report s).freeIndex = s.freeIndex ∧ (report s).pending = s.pending := by
  simp [report]

@[simp] theorem markDirty_frame (i : Fin 224) (s : State) :
    (markDirty i s).plan = s.plan ∧ (markDirty i s).seq = s.seq ∧ (markDirty i s).opt = s.opt ∧
    (markDirty i s).intake = s.intake ∧ (markDirty i s).accum = s.accum ∧ (markDirty i s).trace = s.trace ∧
    (markDirty i s).verdict = s.verdict ∧ (markDirty i s).findings = s.findings ∧ (markDirty i s).path = s.path ∧
    (markDirty i s).mem = s.mem ∧ (markDirty i s).pins = s.pins ∧ (markDirty i s).freeIndex = s.freeIndex ∧
    (markDirty i s).pending = s.pending := by
  simp [markDirty]

/-! ### Machine/Findings.lean -/

@[simp] theorem acceptFinding_frame (f : Finding) (s : State) :
    (acceptFinding f s).plan = s.plan ∧ (acceptFinding f s).seq = s.seq ∧ (acceptFinding f s).opt = s.opt ∧
    (acceptFinding f s).intake = s.intake ∧ (acceptFinding f s).accum = s.accum ∧
    (acceptFinding f s).trace = s.trace ∧ (acceptFinding f s).verdict = s.verdict ∧
    (acceptFinding f s).findings.post = s.findings.post ∧ (acceptFinding f s).findings.taken = s.findings.taken ∧
    (acceptFinding f s).findings.sweepEndNotice = s.findings.sweepEndNotice ∧
    (acceptFinding f s).mirror = s.mirror ∧ (acceptFinding f s).path = s.path ∧ (acceptFinding f s).mem = s.mem ∧
    (acceptFinding f s).pins = s.pins ∧ (acceptFinding f s).freeIndex = s.freeIndex ∧
    (acceptFinding f s).pending = s.pending := by
  simp [acceptFinding]

@[simp] theorem deferFinding_frame (f : Finding) (s : State) :
    (deferFinding f s).plan = s.plan ∧ (deferFinding f s).seq = s.seq ∧ (deferFinding f s).opt = s.opt ∧
    (deferFinding f s).intake = s.intake ∧ (deferFinding f s).accum = s.accum ∧ (deferFinding f s).trace = s.trace ∧
    (deferFinding f s).verdict = s.verdict ∧ (deferFinding f s).findings.post = s.findings.post ∧
    (deferFinding f s).findings.taken = s.findings.taken ∧ (deferFinding f s).findings.queue = s.findings.queue ∧
    (deferFinding f s).findings.sweepEndNotice = s.findings.sweepEndNotice ∧ (deferFinding f s).mirror = s.mirror ∧
    (deferFinding f s).path = s.path ∧ (deferFinding f s).mem = s.mem ∧ (deferFinding f s).pins = s.pins ∧
    (deferFinding f s).freeIndex = s.freeIndex ∧ (deferFinding f s).pending = s.pending := by
  simp [deferFinding]

@[simp] theorem queueCapture_frame (c : Option Capture) (notice : Bool) (s : State) :
    (queueCapture c notice s).plan = s.plan ∧ (queueCapture c notice s).seq = s.seq ∧
    (queueCapture c notice s).opt = s.opt ∧ (queueCapture c notice s).intake = s.intake ∧
    (queueCapture c notice s).accum = s.accum ∧ (queueCapture c notice s).trace = s.trace ∧
    (queueCapture c notice s).verdict = s.verdict ∧ (queueCapture c notice s).findings.post = s.findings.post ∧
    (queueCapture c notice s).findings.taken = s.findings.taken ∧
    (queueCapture c notice s).findings.sweepEndNotice = s.findings.sweepEndNotice ∧
    (queueCapture c notice s).mirror = s.mirror ∧ (queueCapture c notice s).path = s.path ∧
    (queueCapture c notice s).mem = s.mem ∧ (queueCapture c notice s).pins = s.pins ∧
    (queueCapture c notice s).freeIndex = s.freeIndex ∧ (queueCapture c notice s).pending = s.pending := by
  simp [queueCapture]

@[simp] theorem queueSummary_frame (sm : Summary) (notice : Bool) (s : State) :
    (queueSummary sm notice s).plan = s.plan ∧ (queueSummary sm notice s).seq = s.seq ∧
    (queueSummary sm notice s).opt = s.opt ∧ (queueSummary sm notice s).intake = s.intake ∧
    (queueSummary sm notice s).accum = s.accum ∧ (queueSummary sm notice s).trace = s.trace ∧
    (queueSummary sm notice s).verdict = s.verdict ∧ (queueSummary sm notice s).findings.post = s.findings.post ∧
    (queueSummary sm notice s).findings.taken = s.findings.taken ∧
    (queueSummary sm notice s).findings.sweepEndNotice = s.findings.sweepEndNotice ∧
    (queueSummary sm notice s).mirror = s.mirror ∧ (queueSummary sm notice s).path = s.path ∧
    (queueSummary sm notice s).mem = s.mem ∧ (queueSummary sm notice s).pins = s.pins ∧
    (queueSummary sm notice s).freeIndex = s.freeIndex ∧ (queueSummary sm notice s).pending = s.pending := by
  simp [queueSummary]

@[simp] theorem withdrawCaptureNotice_frame (s : State) :
    (withdrawCaptureNotice s).plan = s.plan ∧ (withdrawCaptureNotice s).seq = s.seq ∧
    (withdrawCaptureNotice s).opt = s.opt ∧ (withdrawCaptureNotice s).intake = s.intake ∧
    (withdrawCaptureNotice s).accum = s.accum ∧ (withdrawCaptureNotice s).trace = s.trace ∧
    (withdrawCaptureNotice s).verdict = s.verdict ∧ (withdrawCaptureNotice s).findings.post = s.findings.post ∧
    (withdrawCaptureNotice s).findings.taken = s.findings.taken ∧
    (withdrawCaptureNotice s).findings.sweepEndNotice = s.findings.sweepEndNotice ∧
    (withdrawCaptureNotice s).mirror = s.mirror ∧ (withdrawCaptureNotice s).path = s.path ∧
    (withdrawCaptureNotice s).mem = s.mem ∧ (withdrawCaptureNotice s).pins = s.pins ∧
    (withdrawCaptureNotice s).freeIndex = s.freeIndex ∧ (withdrawCaptureNotice s).pending = s.pending := by
  simp [withdrawCaptureNotice]

@[simp] theorem withdrawNotices_frame (s : State) :
    (withdrawNotices s).plan = s.plan ∧ (withdrawNotices s).seq = s.seq ∧ (withdrawNotices s).opt = s.opt ∧
    (withdrawNotices s).intake = s.intake ∧ (withdrawNotices s).accum = s.accum ∧
    (withdrawNotices s).trace = s.trace ∧ (withdrawNotices s).verdict = s.verdict ∧
    (withdrawNotices s).findings.post = s.findings.post ∧ (withdrawNotices s).findings.taken = s.findings.taken ∧
    (withdrawNotices s).findings.sweepEndNotice = s.findings.sweepEndNotice ∧
    (withdrawNotices s).mirror = s.mirror ∧ (withdrawNotices s).path = s.path ∧ (withdrawNotices s).mem = s.mem ∧
    (withdrawNotices s).pins = s.pins ∧ (withdrawNotices s).freeIndex = s.freeIndex ∧
    (withdrawNotices s).pending = s.pending := by
  simp [withdrawNotices]

@[simp] theorem recordWritten_frame (r : QRecord) (s : State) :
    (recordWritten r s).plan = s.plan ∧ (recordWritten r s).seq = s.seq ∧ (recordWritten r s).opt = s.opt ∧
    (recordWritten r s).intake = s.intake ∧ (recordWritten r s).accum = s.accum ∧
    (recordWritten r s).trace = s.trace ∧ (recordWritten r s).findings.taken = s.findings.taken ∧
    (recordWritten r s).findings.queue = s.findings.queue ∧ (recordWritten r s).path = s.path ∧
    (recordWritten r s).mem = s.mem ∧ (recordWritten r s).pins = s.pins ∧
    (recordWritten r s).freeIndex = s.freeIndex ∧ (recordWritten r s).pending = s.pending := by
  unfold recordWritten
  split <;> simp

@[simp] theorem writeTaken_frame (be : Enables) (t : BitVec 16) (s : State) :
    (writeTaken be t s).plan = s.plan ∧ (writeTaken be t s).seq = s.seq ∧ (writeTaken be t s).opt = s.opt ∧
    (writeTaken be t s).intake = s.intake ∧ (writeTaken be t s).accum = s.accum ∧
    (writeTaken be t s).trace = s.trace ∧ (writeTaken be t s).verdict = s.verdict ∧
    (writeTaken be t s).findings.post = s.findings.post ∧ (writeTaken be t s).findings.queue = s.findings.queue ∧
    (writeTaken be t s).findings.sweepEndNotice = s.findings.sweepEndNotice ∧ (writeTaken be t s).path = s.path ∧
    (writeTaken be t s).mem = s.mem ∧ (writeTaken be t s).pins = s.pins ∧
    (writeTaken be t s).freeIndex = s.freeIndex ∧ (writeTaken be t s).pending = s.pending := by
  unfold writeTaken
  split <;> simp

/-! ### Machine/Verdicts.lean -/

@[simp] theorem postVerdict_frame (k : SlotIx) (v : Verdict) (s : State) :
    (postVerdict k v s).plan = s.plan ∧ (postVerdict k v s).seq = s.seq ∧ (postVerdict k v s).opt = s.opt ∧
    (postVerdict k v s).intake = s.intake ∧ (postVerdict k v s).accum = s.accum ∧
    (postVerdict k v s).trace = s.trace ∧ (postVerdict k v s).findings.post = s.findings.post ∧
    (postVerdict k v s).findings.taken = s.findings.taken ∧
    (postVerdict k v s).findings.sweepEndNotice = s.findings.sweepEndNotice ∧
    (postVerdict k v s).mirror = s.mirror ∧ (postVerdict k v s).path = s.path ∧ (postVerdict k v s).mem = s.mem ∧
    (postVerdict k v s).pins = s.pins ∧ (postVerdict k v s).freeIndex = s.freeIndex ∧
    (postVerdict k v s).pending = s.pending := by
  unfold postVerdict
  repeat' split
  all_goals simp

@[simp] theorem postVerdicts_frame (a : List (SlotIx × Verdict)) (s : State) :
    (postVerdicts a s).plan = s.plan ∧ (postVerdicts a s).seq = s.seq ∧ (postVerdicts a s).opt = s.opt ∧
    (postVerdicts a s).intake = s.intake ∧ (postVerdicts a s).accum = s.accum ∧ (postVerdicts a s).trace = s.trace ∧
    (postVerdicts a s).findings.post = s.findings.post ∧ (postVerdicts a s).findings.taken = s.findings.taken ∧
    (postVerdicts a s).findings.sweepEndNotice = s.findings.sweepEndNotice ∧ (postVerdicts a s).mirror = s.mirror ∧
    (postVerdicts a s).path = s.path ∧ (postVerdicts a s).mem = s.mem ∧ (postVerdicts a s).pins = s.pins ∧
    (postVerdicts a s).freeIndex = s.freeIndex ∧ (postVerdicts a s).pending = s.pending := by
  induction a generalizing s with
  | _ =>
    simp_all [postVerdicts]

@[simp] theorem setInput_frame (k : SlotIx) (x : Option PairInput) (s : State) :
    (setInput k x s).plan = s.plan ∧ (setInput k x s).seq = s.seq ∧ (setInput k x s).opt = s.opt ∧
    (setInput k x s).intake = s.intake ∧ (setInput k x s).accum = s.accum ∧ (setInput k x s).trace = s.trace ∧
    (setInput k x s).verdict.table = s.verdict.table ∧ (setInput k x s).findings = s.findings ∧
    (setInput k x s).mirror = s.mirror ∧ (setInput k x s).path = s.path ∧ (setInput k x s).mem = s.mem ∧
    (setInput k x s).pins = s.pins ∧ (setInput k x s).freeIndex = s.freeIndex ∧
    (setInput k x s).pending = s.pending := by
  simp [setInput]

@[simp] theorem clearPairs_frame (s : State) :
    (clearPairs s).plan = s.plan ∧ (clearPairs s).seq = s.seq ∧ (clearPairs s).opt = s.opt ∧
    (clearPairs s).intake = s.intake ∧ (clearPairs s).accum = s.accum ∧ (clearPairs s).trace = s.trace ∧
    (clearPairs s).verdict.table = s.verdict.table ∧ (clearPairs s).findings = s.findings ∧
    (clearPairs s).mirror = s.mirror ∧ (clearPairs s).path = s.path ∧ (clearPairs s).mem = s.mem ∧
    (clearPairs s).pins = s.pins ∧ (clearPairs s).freeIndex = s.freeIndex ∧ (clearPairs s).pending = s.pending := by
  simp [clearPairs]

@[simp] theorem resolveUnpaired_frame (a : SlotIx) (s : State) :
    (resolveUnpaired a s).plan = s.plan ∧ (resolveUnpaired a s).seq = s.seq ∧ (resolveUnpaired a s).opt = s.opt ∧
    (resolveUnpaired a s).intake = s.intake ∧ (resolveUnpaired a s).accum = s.accum ∧
    (resolveUnpaired a s).trace = s.trace ∧ (resolveUnpaired a s).findings.post = s.findings.post ∧
    (resolveUnpaired a s).findings.taken = s.findings.taken ∧
    (resolveUnpaired a s).findings.sweepEndNotice = s.findings.sweepEndNotice ∧
    (resolveUnpaired a s).mirror = s.mirror ∧ (resolveUnpaired a s).path = s.path ∧
    (resolveUnpaired a s).mem = s.mem ∧ (resolveUnpaired a s).pins = s.pins ∧
    (resolveUnpaired a s).freeIndex = s.freeIndex ∧ (resolveUnpaired a s).pending = s.pending := by
  unfold resolveUnpaired
  repeat' split
  all_goals simp

@[simp] theorem resolvePending_frame (a : List SlotIx) (s : State) :
    (resolvePending a s).plan = s.plan ∧ (resolvePending a s).seq = s.seq ∧ (resolvePending a s).opt = s.opt ∧
    (resolvePending a s).intake = s.intake ∧ (resolvePending a s).accum = s.accum ∧
    (resolvePending a s).trace = s.trace ∧ (resolvePending a s).findings.post = s.findings.post ∧
    (resolvePending a s).findings.taken = s.findings.taken ∧
    (resolvePending a s).findings.sweepEndNotice = s.findings.sweepEndNotice ∧
    (resolvePending a s).mirror = s.mirror ∧ (resolvePending a s).path = s.path ∧ (resolvePending a s).mem = s.mem ∧
    (resolvePending a s).pins = s.pins ∧ (resolvePending a s).freeIndex = s.freeIndex ∧
    (resolvePending a s).pending = s.pending := by
  induction a generalizing s with
  | _ =>
    simp_all [resolvePending]

@[simp] theorem breakPair_frame (b : SlotIx) (judged : Judgement) (a : SlotIx) (s : State) :
    (breakPair b judged a s).plan = s.plan ∧ (breakPair b judged a s).seq = s.seq ∧
    (breakPair b judged a s).opt = s.opt ∧ (breakPair b judged a s).intake = s.intake ∧
    (breakPair b judged a s).accum = s.accum ∧ (breakPair b judged a s).trace = s.trace ∧
    (breakPair b judged a s).findings.post = s.findings.post ∧
    (breakPair b judged a s).findings.taken = s.findings.taken ∧
    (breakPair b judged a s).findings.sweepEndNotice = s.findings.sweepEndNotice ∧
    (breakPair b judged a s).mirror = s.mirror ∧ (breakPair b judged a s).path = s.path ∧
    (breakPair b judged a s).mem = s.mem ∧ (breakPair b judged a s).pins = s.pins ∧
    (breakPair b judged a s).freeIndex = s.freeIndex ∧ (breakPair b judged a s).pending = s.pending := by
  unfold breakPair
  split <;> simp

@[simp] theorem breakPairs_frame (b : SlotIx) (judged : Judgement) (a : List SlotIx) (s : State) :
    (breakPairs b judged a s).plan = s.plan ∧ (breakPairs b judged a s).seq = s.seq ∧
    (breakPairs b judged a s).opt = s.opt ∧ (breakPairs b judged a s).intake = s.intake ∧
    (breakPairs b judged a s).accum = s.accum ∧ (breakPairs b judged a s).trace = s.trace ∧
    (breakPairs b judged a s).findings.post = s.findings.post ∧
    (breakPairs b judged a s).findings.taken = s.findings.taken ∧
    (breakPairs b judged a s).findings.sweepEndNotice = s.findings.sweepEndNotice ∧
    (breakPairs b judged a s).mirror = s.mirror ∧ (breakPairs b judged a s).path = s.path ∧
    (breakPairs b judged a s).mem = s.mem ∧ (breakPairs b judged a s).pins = s.pins ∧
    (breakPairs b judged a s).freeIndex = s.freeIndex ∧ (breakPairs b judged a s).pending = s.pending := by
  induction a generalizing s with
  | _ =>
    simp_all [breakPairs]

@[simp] theorem recordJudgement_frame (b : SlotIx) (judged : Judgement) (s : State) :
    (recordJudgement b judged s).plan = s.plan ∧ (recordJudgement b judged s).seq = s.seq ∧
    (recordJudgement b judged s).opt = s.opt ∧ (recordJudgement b judged s).intake = s.intake ∧
    (recordJudgement b judged s).accum = s.accum ∧ (recordJudgement b judged s).trace = s.trace ∧
    (recordJudgement b judged s).findings.post = s.findings.post ∧
    (recordJudgement b judged s).findings.taken = s.findings.taken ∧
    (recordJudgement b judged s).findings.sweepEndNotice = s.findings.sweepEndNotice ∧
    (recordJudgement b judged s).mirror = s.mirror ∧ (recordJudgement b judged s).path = s.path ∧
    (recordJudgement b judged s).mem = s.mem ∧ (recordJudgement b judged s).pins = s.pins ∧
    (recordJudgement b judged s).freeIndex = s.freeIndex ∧ (recordJudgement b judged s).pending = s.pending := by
  simp [recordJudgement]

@[simp] theorem resolvedPart_frame (s : State) (k : SlotIx) (x : PairInput) (o : Option Kind) :
    (resolvedPart s k x o).1.plan = s.plan ∧ (resolvedPart s k x o).1.seq = s.seq ∧
    (resolvedPart s k x o).1.opt = s.opt ∧ (resolvedPart s k x o).1.intake = s.intake ∧
    (resolvedPart s k x o).1.accum = s.accum ∧ (resolvedPart s k x o).1.trace = s.trace ∧
    (resolvedPart s k x o).1.verdict.table = s.verdict.table ∧ (resolvedPart s k x o).1.findings = s.findings ∧
    (resolvedPart s k x o).1.mirror = s.mirror ∧ (resolvedPart s k x o).1.path = s.path ∧
    (resolvedPart s k x o).1.mem = s.mem ∧ (resolvedPart s k x o).1.pins = s.pins ∧
    (resolvedPart s k x o).1.freeIndex = s.freeIndex ∧ (resolvedPart s k x o).1.pending = s.pending := by
  unfold resolvedPart
  split <;> simp

@[simp] theorem resolvePair_frame
    (short : SlotIx) (long : SlotIx) (x : PairInput) (y : PairInput) (own : SlotIx → List (SlotIx × Verdict)) (s : State) :
    (resolvePair short long x y own s).plan = s.plan ∧ (resolvePair short long x y own s).seq = s.seq ∧
    (resolvePair short long x y own s).opt = s.opt ∧ (resolvePair short long x y own s).intake = s.intake ∧
    (resolvePair short long x y own s).accum = s.accum ∧ (resolvePair short long x y own s).trace = s.trace ∧
    (resolvePair short long x y own s).findings.post = s.findings.post ∧
    (resolvePair short long x y own s).findings.taken = s.findings.taken ∧
    (resolvePair short long x y own s).findings.sweepEndNotice = s.findings.sweepEndNotice ∧
    (resolvePair short long x y own s).mirror = s.mirror ∧ (resolvePair short long x y own s).path = s.path ∧
    (resolvePair short long x y own s).mem = s.mem ∧ (resolvePair short long x y own s).pins = s.pins ∧
    (resolvePair short long x y own s).freeIndex = s.freeIndex ∧
    (resolvePair short long x y own s).pending = s.pending := by
  simp [resolvePair]

@[simp] theorem resolveAgainst_frame
    (a : SlotIx) (b : SlotIx) (x : PairInput) (y : PairInput) (own : SlotIx → List (SlotIx × Verdict)) (s : State) :
    (resolveAgainst a b x y own s).plan = s.plan ∧ (resolveAgainst a b x y own s).seq = s.seq ∧
    (resolveAgainst a b x y own s).opt = s.opt ∧ (resolveAgainst a b x y own s).intake = s.intake ∧
    (resolveAgainst a b x y own s).accum = s.accum ∧ (resolveAgainst a b x y own s).trace = s.trace ∧
    (resolveAgainst a b x y own s).findings.post = s.findings.post ∧
    (resolveAgainst a b x y own s).findings.taken = s.findings.taken ∧
    (resolveAgainst a b x y own s).findings.sweepEndNotice = s.findings.sweepEndNotice ∧
    (resolveAgainst a b x y own s).mirror = s.mirror ∧ (resolveAgainst a b x y own s).path = s.path ∧
    (resolveAgainst a b x y own s).mem = s.mem ∧ (resolveAgainst a b x y own s).pins = s.pins ∧
    (resolveAgainst a b x y own s).freeIndex = s.freeIndex ∧
    (resolveAgainst a b x y own s).pending = s.pending := by
  unfold resolveAgainst
  split <;> simp

@[simp] theorem takeStored_frame (k : SlotIx) (r : Result) (partner : SlotIx) (formed : Bool) (s : State) :
    (takeStored k r partner formed s).plan = s.plan ∧ (takeStored k r partner formed s).seq = s.seq ∧
    (takeStored k r partner formed s).opt = s.opt ∧ (takeStored k r partner formed s).intake = s.intake ∧
    (takeStored k r partner formed s).accum = s.accum ∧ (takeStored k r partner formed s).trace = s.trace ∧
    (takeStored k r partner formed s).findings.post = s.findings.post ∧
    (takeStored k r partner formed s).findings.taken = s.findings.taken ∧
    (takeStored k r partner formed s).findings.sweepEndNotice = s.findings.sweepEndNotice ∧
    (takeStored k r partner formed s).mirror = s.mirror ∧ (takeStored k r partner formed s).path = s.path ∧
    (takeStored k r partner formed s).mem = s.mem ∧ (takeStored k r partner formed s).pins = s.pins ∧
    (takeStored k r partner formed s).freeIndex = s.freeIndex ∧
    (takeStored k r partner formed s).pending = s.pending := by
  unfold takeStored
  repeat' split
  all_goals simp

@[simp] theorem takeCandidate_frame (k : SlotIx) (r : Result) (partner : SlotIx) (formed : Bool) (s : State) :
    (takeCandidate k r partner formed s).plan = s.plan ∧ (takeCandidate k r partner formed s).seq = s.seq ∧
    (takeCandidate k r partner formed s).opt = s.opt ∧ (takeCandidate k r partner formed s).intake = s.intake ∧
    (takeCandidate k r partner formed s).accum = s.accum ∧ (takeCandidate k r partner formed s).trace = s.trace ∧
    (takeCandidate k r partner formed s).findings.post = s.findings.post ∧
    (takeCandidate k r partner formed s).findings.taken = s.findings.taken ∧
    (takeCandidate k r partner formed s).findings.sweepEndNotice = s.findings.sweepEndNotice ∧
    (takeCandidate k r partner formed s).mirror = s.mirror ∧ (takeCandidate k r partner formed s).path = s.path ∧
    (takeCandidate k r partner formed s).mem = s.mem ∧ (takeCandidate k r partner formed s).pins = s.pins ∧
    (takeCandidate k r partner formed s).freeIndex = s.freeIndex ∧
    (takeCandidate k r partner formed s).pending = s.pending := by
  unfold takeCandidate
  repeat' split
  all_goals simp

@[simp] theorem verdictTake_frame (k : SlotIx) (r : Result) (s : State) :
    (verdictTake k r s).plan = s.plan ∧ (verdictTake k r s).seq = s.seq ∧ (verdictTake k r s).opt = s.opt ∧
    (verdictTake k r s).intake = s.intake ∧ (verdictTake k r s).accum = s.accum ∧
    (verdictTake k r s).trace = s.trace ∧ (verdictTake k r s).findings.post = s.findings.post ∧
    (verdictTake k r s).findings.taken = s.findings.taken ∧
    (verdictTake k r s).findings.sweepEndNotice = s.findings.sweepEndNotice ∧
    (verdictTake k r s).mirror = s.mirror ∧ (verdictTake k r s).path = s.path ∧ (verdictTake k r s).mem = s.mem ∧
    (verdictTake k r s).pins = s.pins ∧ (verdictTake k r s).freeIndex = s.freeIndex ∧
    (verdictTake k r s).pending = s.pending := by
  unfold verdictTake
  repeat' split
  all_goals simp

/-! ### Machine/PlanCapture.lean -/

@[simp] theorem presentRing_frame (s : State) :
    (presentRing s).plan.lastCommand = s.plan.lastCommand ∧ (presentRing s).plan.pendingCopy = s.plan.pendingCopy ∧
    (presentRing s).seq = s.seq ∧ (presentRing s).opt = s.opt ∧ (presentRing s).intake = s.intake ∧
    (presentRing s).accum = s.accum ∧ (presentRing s).trace = s.trace ∧ (presentRing s).verdict = s.verdict ∧
    (presentRing s).findings.post = s.findings.post ∧ (presentRing s).findings.taken = s.findings.taken ∧
    (presentRing s).findings.queue = s.findings.queue ∧
    (presentRing s).findings.sweepEndNotice = s.findings.sweepEndNotice ∧ (presentRing s).mirror = s.mirror ∧
    (presentRing s).path = s.path ∧ (presentRing s).mem = s.mem ∧ (presentRing s).pins = s.pins ∧
    (presentRing s).freeIndex = s.freeIndex ∧ (presentRing s).pending = s.pending := by
  unfold presentRing
  repeat' split
  all_goals simp

@[simp] theorem applyHeader_frame (s : State) :
    (applyHeader s).plan.lastCommand = s.plan.lastCommand ∧ (applyHeader s).plan.pendingCopy = s.plan.pendingCopy ∧
    (applyHeader s).seq = s.seq ∧ (applyHeader s).opt = s.opt ∧ (applyHeader s).intake = s.intake ∧
    (applyHeader s).accum = s.accum ∧ (applyHeader s).trace = s.trace ∧ (applyHeader s).verdict = s.verdict ∧
    (applyHeader s).findings.post = s.findings.post ∧ (applyHeader s).findings.taken = s.findings.taken ∧
    (applyHeader s).findings.queue = s.findings.queue ∧
    (applyHeader s).findings.sweepEndNotice = s.findings.sweepEndNotice ∧ (applyHeader s).mirror = s.mirror ∧
    (applyHeader s).path = s.path ∧ (applyHeader s).mem = s.mem ∧ (applyHeader s).pins = s.pins ∧
    (applyHeader s).freeIndex = s.freeIndex ∧ (applyHeader s).pending = s.pending := by
  simp [applyHeader]

@[simp] theorem applyHeaderIfDue_frame (s : State) :
    (applyHeaderIfDue s).plan.lastCommand = s.plan.lastCommand ∧
    (applyHeaderIfDue s).plan.pendingCopy = s.plan.pendingCopy ∧ (applyHeaderIfDue s).seq = s.seq ∧
    (applyHeaderIfDue s).opt = s.opt ∧ (applyHeaderIfDue s).intake = s.intake ∧
    (applyHeaderIfDue s).accum = s.accum ∧ (applyHeaderIfDue s).trace = s.trace ∧
    (applyHeaderIfDue s).verdict = s.verdict ∧ (applyHeaderIfDue s).findings.post = s.findings.post ∧
    (applyHeaderIfDue s).findings.taken = s.findings.taken ∧
    (applyHeaderIfDue s).findings.queue = s.findings.queue ∧
    (applyHeaderIfDue s).findings.sweepEndNotice = s.findings.sweepEndNotice ∧
    (applyHeaderIfDue s).mirror = s.mirror ∧ (applyHeaderIfDue s).path = s.path ∧ (applyHeaderIfDue s).mem = s.mem ∧
    (applyHeaderIfDue s).pins = s.pins ∧ (applyHeaderIfDue s).freeIndex = s.freeIndex ∧
    (applyHeaderIfDue s).pending = s.pending := by
  unfold applyHeaderIfDue
  split <;> simp

@[simp] theorem applyZonesIfDue_frame (s : State) :
    (applyZonesIfDue s).plan.lastCommand = s.plan.lastCommand ∧
    (applyZonesIfDue s).plan.pendingCopy = s.plan.pendingCopy ∧
    (applyZonesIfDue s).plan.ringFault = s.plan.ringFault ∧ (applyZonesIfDue s).seq = s.seq ∧
    (applyZonesIfDue s).opt = s.opt ∧ (applyZonesIfDue s).intake = s.intake ∧ (applyZonesIfDue s).accum = s.accum ∧
    (applyZonesIfDue s).trace = s.trace ∧ (applyZonesIfDue s).verdict = s.verdict ∧
    (applyZonesIfDue s).findings = s.findings ∧ (applyZonesIfDue s).mirror = s.mirror ∧
    (applyZonesIfDue s).path = s.path ∧ (applyZonesIfDue s).mem = s.mem ∧ (applyZonesIfDue s).pins = s.pins ∧
    (applyZonesIfDue s).freeIndex = s.freeIndex ∧ (applyZonesIfDue s).pending = s.pending := by
  unfold applyZonesIfDue
  split <;> simp

@[simp] theorem applyRecord_frame (k : SlotIx) (s : State) :
    (applyRecord k s).plan.lastCommand = s.plan.lastCommand ∧
    (applyRecord k s).plan.pendingCopy = s.plan.pendingCopy ∧ (applyRecord k s).plan.ringFault = s.plan.ringFault ∧
    (applyRecord k s).seq = s.seq ∧ (applyRecord k s).opt = s.opt ∧ (applyRecord k s).intake = s.intake ∧
    (applyRecord k s).accum.lock = s.accum.lock ∧ (applyRecord k s).accum.queue = s.accum.queue ∧
    (applyRecord k s).accum.add = s.accum.add ∧ (applyRecord k s).trace = s.trace ∧
    (applyRecord k s).findings = s.findings ∧ (applyRecord k s).mirror = s.mirror ∧
    (applyRecord k s).path = s.path ∧ (applyRecord k s).mem = s.mem ∧ (applyRecord k s).pins = s.pins ∧
    (applyRecord k s).freeIndex = s.freeIndex ∧ (applyRecord k s).pending = s.pending := by
  unfold applyRecord
  dsimp only
  split <;> simp

@[simp] theorem applyRecordIfDue_frame (k : SlotIx) (s : State) :
    (applyRecordIfDue k s).plan.lastCommand = s.plan.lastCommand ∧
    (applyRecordIfDue k s).plan.pendingCopy = s.plan.pendingCopy ∧
    (applyRecordIfDue k s).plan.ringFault = s.plan.ringFault ∧ (applyRecordIfDue k s).seq = s.seq ∧
    (applyRecordIfDue k s).opt = s.opt ∧ (applyRecordIfDue k s).intake = s.intake ∧
    (applyRecordIfDue k s).accum.lock = s.accum.lock ∧ (applyRecordIfDue k s).accum.queue = s.accum.queue ∧
    (applyRecordIfDue k s).accum.add = s.accum.add ∧ (applyRecordIfDue k s).trace = s.trace ∧
    (applyRecordIfDue k s).findings = s.findings ∧ (applyRecordIfDue k s).mirror = s.mirror ∧
    (applyRecordIfDue k s).path = s.path ∧ (applyRecordIfDue k s).mem = s.mem ∧
    (applyRecordIfDue k s).pins = s.pins ∧ (applyRecordIfDue k s).freeIndex = s.freeIndex ∧
    (applyRecordIfDue k s).pending = s.pending := by
  unfold applyRecordIfDue
  split <;> simp

@[simp] theorem applyRecords_frame (a : List SlotIx) (s : State) :
    (applyRecords a s).plan.lastCommand = s.plan.lastCommand ∧
    (applyRecords a s).plan.pendingCopy = s.plan.pendingCopy ∧
    (applyRecords a s).plan.ringFault = s.plan.ringFault ∧ (applyRecords a s).seq = s.seq ∧
    (applyRecords a s).opt = s.opt ∧ (applyRecords a s).intake = s.intake ∧
    (applyRecords a s).accum.lock = s.accum.lock ∧ (applyRecords a s).accum.queue = s.accum.queue ∧
    (applyRecords a s).accum.add = s.accum.add ∧ (applyRecords a s).trace = s.trace ∧
    (applyRecords a s).findings = s.findings ∧ (applyRecords a s).mirror = s.mirror ∧
    (applyRecords a s).path = s.path ∧ (applyRecords a s).mem = s.mem ∧ (applyRecords a s).pins = s.pins ∧
    (applyRecords a s).freeIndex = s.freeIndex ∧ (applyRecords a s).pending = s.pending := by
  induction a generalizing s with
  | _ =>
    simp_all [applyRecords]

@[simp] theorem applyDirty_frame (s : State) :
    (applyDirty s).plan.lastCommand = s.plan.lastCommand ∧ (applyDirty s).plan.pendingCopy = s.plan.pendingCopy ∧
    (applyDirty s).seq = s.seq ∧ (applyDirty s).opt = s.opt ∧ (applyDirty s).intake = s.intake ∧
    (applyDirty s).accum.lock = s.accum.lock ∧ (applyDirty s).accum.queue = s.accum.queue ∧
    (applyDirty s).accum.add = s.accum.add ∧ (applyDirty s).trace = s.trace ∧
    (applyDirty s).findings.post = s.findings.post ∧ (applyDirty s).findings.taken = s.findings.taken ∧
    (applyDirty s).findings.queue = s.findings.queue ∧
    (applyDirty s).findings.sweepEndNotice = s.findings.sweepEndNotice ∧ (applyDirty s).mirror = s.mirror ∧
    (applyDirty s).path = s.path ∧ (applyDirty s).mem = s.mem ∧ (applyDirty s).pins = s.pins ∧
    (applyDirty s).freeIndex = s.freeIndex ∧ (applyDirty s).pending = s.pending := by
  unfold applyDirty
  split <;> simp

@[simp] theorem applyOutside_frame (s : State) :
    (applyOutside s).plan.lastCommand = s.plan.lastCommand ∧
    (applyOutside s).plan.pendingCopy = s.plan.pendingCopy ∧ (applyOutside s).seq = s.seq ∧
    (applyOutside s).opt = s.opt ∧ (applyOutside s).intake = s.intake ∧ (applyOutside s).accum.lock = s.accum.lock ∧
    (applyOutside s).accum.queue = s.accum.queue ∧ (applyOutside s).accum.add = s.accum.add ∧
    (applyOutside s).trace = s.trace ∧ (applyOutside s).findings.post = s.findings.post ∧
    (applyOutside s).findings.taken = s.findings.taken ∧ (applyOutside s).findings.queue = s.findings.queue ∧
    (applyOutside s).findings.sweepEndNotice = s.findings.sweepEndNotice ∧ (applyOutside s).mirror = s.mirror ∧
    (applyOutside s).path = s.path ∧ (applyOutside s).mem = s.mem ∧ (applyOutside s).pins = s.pins ∧
    (applyOutside s).freeIndex = s.freeIndex ∧ (applyOutside s).pending = s.pending := by
  unfold applyOutside
  split <;> simp

@[simp] theorem applyAtSweepStart_frame (s : State) :
    (applyAtSweepStart s).plan.lastCommand = s.plan.lastCommand ∧
    (applyAtSweepStart s).plan.pendingCopy = s.plan.pendingCopy ∧ (applyAtSweepStart s).seq = s.seq ∧
    (applyAtSweepStart s).opt = s.opt ∧ (applyAtSweepStart s).intake = s.intake ∧
    (applyAtSweepStart s).accum = s.accum ∧ (applyAtSweepStart s).trace = s.trace ∧
    (applyAtSweepStart s).verdict = s.verdict ∧ (applyAtSweepStart s).findings.post = s.findings.post ∧
    (applyAtSweepStart s).findings.taken = s.findings.taken ∧
    (applyAtSweepStart s).findings.queue = s.findings.queue ∧
    (applyAtSweepStart s).findings.sweepEndNotice = s.findings.sweepEndNotice ∧
    (applyAtSweepStart s).mirror = s.mirror ∧ (applyAtSweepStart s).path = s.path ∧
    (applyAtSweepStart s).mem = s.mem ∧ (applyAtSweepStart s).pins = s.pins ∧
    (applyAtSweepStart s).freeIndex = s.freeIndex ∧ (applyAtSweepStart s).pending = s.pending := by
  unfold applyAtSweepStart
  split <;> simp

@[simp] theorem applyAtEntry_frame (k : SlotIx) (s : State) :
    (applyAtEntry k s).plan.lastCommand = s.plan.lastCommand ∧
    (applyAtEntry k s).plan.pendingCopy = s.plan.pendingCopy ∧
    (applyAtEntry k s).plan.ringFault = s.plan.ringFault ∧ (applyAtEntry k s).seq = s.seq ∧
    (applyAtEntry k s).opt = s.opt ∧ (applyAtEntry k s).intake = s.intake ∧
    (applyAtEntry k s).accum.lock = s.accum.lock ∧ (applyAtEntry k s).accum.queue = s.accum.queue ∧
    (applyAtEntry k s).accum.add = s.accum.add ∧ (applyAtEntry k s).trace = s.trace ∧
    (applyAtEntry k s).findings = s.findings ∧ (applyAtEntry k s).mirror = s.mirror ∧
    (applyAtEntry k s).path = s.path ∧ (applyAtEntry k s).mem = s.mem ∧ (applyAtEntry k s).pins = s.pins ∧
    (applyAtEntry k s).freeIndex = s.freeIndex ∧ (applyAtEntry k s).pending = s.pending := by
  unfold applyAtEntry
  split <;> simp

@[simp] theorem ringReportedEmpty_frame (s : State) :
    (ringReportedEmpty s).plan.lastCommand = s.plan.lastCommand ∧
    (ringReportedEmpty s).plan.pendingCopy = s.plan.pendingCopy ∧ (ringReportedEmpty s).seq = s.seq ∧
    (ringReportedEmpty s).opt = s.opt ∧ (ringReportedEmpty s).intake = s.intake ∧
    (ringReportedEmpty s).accum = s.accum ∧ (ringReportedEmpty s).trace = s.trace ∧
    (ringReportedEmpty s).verdict = s.verdict ∧ (ringReportedEmpty s).findings.post = s.findings.post ∧
    (ringReportedEmpty s).findings.taken = s.findings.taken ∧
    (ringReportedEmpty s).findings.queue = s.findings.queue ∧
    (ringReportedEmpty s).findings.sweepEndNotice = s.findings.sweepEndNotice ∧
    (ringReportedEmpty s).mirror = s.mirror ∧ (ringReportedEmpty s).path = s.path ∧
    (ringReportedEmpty s).mem = s.mem ∧ (ringReportedEmpty s).pins = s.pins ∧
    (ringReportedEmpty s).freeIndex = s.freeIndex ∧ (ringReportedEmpty s).pending = s.pending := by
  unfold ringReportedEmpty
  split <;> simp

@[simp] theorem mergeHeader_frame (i : Fin 32) (be : Enables) (data : Word) (s : State) :
    (mergeHeader i be data s).plan.lastCommand = s.plan.lastCommand ∧
    (mergeHeader i be data s).plan.ringFault = s.plan.ringFault ∧ (mergeHeader i be data s).seq = s.seq ∧
    (mergeHeader i be data s).opt = s.opt ∧ (mergeHeader i be data s).intake = s.intake ∧
    (mergeHeader i be data s).accum = s.accum ∧ (mergeHeader i be data s).trace = s.trace ∧
    (mergeHeader i be data s).verdict = s.verdict ∧ (mergeHeader i be data s).findings = s.findings ∧
    (mergeHeader i be data s).mirror = s.mirror ∧ (mergeHeader i be data s).path = s.path ∧
    (mergeHeader i be data s).mem = s.mem ∧ (mergeHeader i be data s).pins = s.pins ∧
    (mergeHeader i be data s).freeIndex = s.freeIndex ∧ (mergeHeader i be data s).pending = s.pending := by
  unfold mergeHeader
  repeat' split
  all_goals simp

@[simp] theorem mergeZones_frame (i : Fin 128) (be : Enables) (data : Word) (s : State) :
    (mergeZones i be data s).plan.lastCommand = s.plan.lastCommand ∧
    (mergeZones i be data s).plan.activeCopy = s.plan.activeCopy ∧
    (mergeZones i be data s).plan.ringFault = s.plan.ringFault ∧ (mergeZones i be data s).seq = s.seq ∧
    (mergeZones i be data s).opt = s.opt ∧ (mergeZones i be data s).intake = s.intake ∧
    (mergeZones i be data s).accum = s.accum ∧ (mergeZones i be data s).trace = s.trace ∧
    (mergeZones i be data s).verdict = s.verdict ∧ (mergeZones i be data s).findings = s.findings ∧
    (mergeZones i be data s).mirror = s.mirror ∧ (mergeZones i be data s).path = s.path ∧
    (mergeZones i be data s).mem = s.mem ∧ (mergeZones i be data s).pins = s.pins ∧
    (mergeZones i be data s).freeIndex = s.freeIndex ∧ (mergeZones i be data s).pending = s.pending := by
  simp [mergeZones]

@[simp] theorem mergeRecord_frame (k : SlotIx) (i : Fin 16) (be : Enables) (data : Word) (s : State) :
    (mergeRecord k i be data s).plan.lastCommand = s.plan.lastCommand ∧
    (mergeRecord k i be data s).plan.activeCopy = s.plan.activeCopy ∧
    (mergeRecord k i be data s).plan.ringFault = s.plan.ringFault ∧ (mergeRecord k i be data s).seq = s.seq ∧
    (mergeRecord k i be data s).opt = s.opt ∧ (mergeRecord k i be data s).intake = s.intake ∧
    (mergeRecord k i be data s).accum = s.accum ∧ (mergeRecord k i be data s).trace = s.trace ∧
    (mergeRecord k i be data s).verdict = s.verdict ∧ (mergeRecord k i be data s).findings = s.findings ∧
    (mergeRecord k i be data s).mirror = s.mirror ∧ (mergeRecord k i be data s).path = s.path ∧
    (mergeRecord k i be data s).mem = s.mem ∧ (mergeRecord k i be data s).pins = s.pins ∧
    (mergeRecord k i be data s).freeIndex = s.freeIndex ∧ (mergeRecord k i be data s).pending = s.pending := by
  simp [mergeRecord]

@[simp] theorem mergePlan_frame (offset : Nat) (be : Enables) (data : Word) (s : State) :
    (mergePlan offset be data s).plan.lastCommand = s.plan.lastCommand ∧
    (mergePlan offset be data s).plan.ringFault = s.plan.ringFault ∧ (mergePlan offset be data s).seq = s.seq ∧
    (mergePlan offset be data s).opt = s.opt ∧ (mergePlan offset be data s).intake = s.intake ∧
    (mergePlan offset be data s).accum = s.accum ∧ (mergePlan offset be data s).trace = s.trace ∧
    (mergePlan offset be data s).verdict = s.verdict ∧ (mergePlan offset be data s).findings = s.findings ∧
    (mergePlan offset be data s).mirror = s.mirror ∧ (mergePlan offset be data s).path = s.path ∧
    (mergePlan offset be data s).mem = s.mem ∧ (mergePlan offset be data s).pins = s.pins ∧
    (mergePlan offset be data s).freeIndex = s.freeIndex ∧ (mergePlan offset be data s).pending = s.pending := by
  unfold mergePlan
  dsimp only
  repeat' split
  all_goals simp

@[simp] theorem setPartnerIgnored_frame (k : SlotIx) (s : State) :
    (setPartnerIgnored k s).plan.lastCommand = s.plan.lastCommand ∧
    (setPartnerIgnored k s).plan.pendingCopy = s.plan.pendingCopy ∧
    (setPartnerIgnored k s).plan.activeCopy = s.plan.activeCopy ∧
    (setPartnerIgnored k s).plan.ringFault = s.plan.ringFault ∧ (setPartnerIgnored k s).seq = s.seq ∧
    (setPartnerIgnored k s).opt = s.opt ∧ (setPartnerIgnored k s).intake = s.intake ∧
    (setPartnerIgnored k s).accum = s.accum ∧ (setPartnerIgnored k s).trace = s.trace ∧
    (setPartnerIgnored k s).verdict = s.verdict ∧ (setPartnerIgnored k s).findings = s.findings ∧
    (setPartnerIgnored k s).mirror = s.mirror ∧ (setPartnerIgnored k s).path = s.path ∧
    (setPartnerIgnored k s).mem = s.mem ∧ (setPartnerIgnored k s).pins = s.pins ∧
    (setPartnerIgnored k s).freeIndex = s.freeIndex ∧ (setPartnerIgnored k s).pending = s.pending := by
  simp [setPartnerIgnored]

@[simp] theorem recordOutcome_frame (code : BitVec 8) (tag : BitVec 8) (o : CmdOutcome) (s : State) :
    (recordOutcome code tag o s).plan.pendingCopy = s.plan.pendingCopy ∧
    (recordOutcome code tag o s).plan.activeCopy = s.plan.activeCopy ∧
    (recordOutcome code tag o s).plan.ringFault = s.plan.ringFault ∧ (recordOutcome code tag o s).seq = s.seq ∧
    (recordOutcome code tag o s).opt = s.opt ∧ (recordOutcome code tag o s).intake = s.intake ∧
    (recordOutcome code tag o s).accum = s.accum ∧ (recordOutcome code tag o s).trace = s.trace ∧
    (recordOutcome code tag o s).verdict = s.verdict ∧ (recordOutcome code tag o s).findings = s.findings ∧
    (recordOutcome code tag o s).path = s.path ∧ (recordOutcome code tag o s).mem = s.mem ∧
    (recordOutcome code tag o s).pins = s.pins ∧ (recordOutcome code tag o s).freeIndex = s.freeIndex ∧
    (recordOutcome code tag o s).pending = s.pending := by
  simp [recordOutcome]

end Sys2Proof.Machine
end

