-- ==== Sys2Proof/Laws/FramesEngines.lean ====
section
/-! SUPPORT. Frames: which fields of the state the operations leave unchanged: those of
the Trace Engine, Optical Control and view reads.
One lemma an operation, in the order of the definitions, each used by those after it. -/

namespace Sys2Proof.Machine

/-! ### Machine/Trace.lean -/

@[simp] theorem raiseCondition_frame (c : Condition) (k : SlotIx) (s : State) :
    (raiseCondition c k s).plan = s.plan ∧ (raiseCondition c k s).seq = s.seq ∧ (raiseCondition c k s).opt = s.opt ∧
    (raiseCondition c k s).intake = s.intake ∧ (raiseCondition c k s).accum = s.accum ∧
    (raiseCondition c k s).trace.bg = s.trace.bg ∧ (raiseCondition c k s).trace.view = s.trace.view ∧
    (raiseCondition c k s).trace.capture = s.trace.capture ∧
    (raiseCondition c k s).trace.squeezed = s.trace.squeezed ∧ (raiseCondition c k s).verdict = s.verdict ∧
    (raiseCondition c k s).findings = s.findings ∧ (raiseCondition c k s).mirror = s.mirror ∧
    (raiseCondition c k s).path = s.path ∧ (raiseCondition c k s).mem = s.mem ∧
    (raiseCondition c k s).pins = s.pins ∧ (raiseCondition c k s).freeIndex = s.freeIndex ∧
    (raiseCondition c k s).pending = s.pending := by
  simp [raiseCondition]

@[simp] theorem captureStop_frame (b : Background) (point : Nat) (c : Condition) (s : State) :
    (captureStop b point c s).plan = s.plan ∧ (captureStop b point c s).seq = s.seq ∧
    (captureStop b point c s).opt = s.opt ∧ (captureStop b point c s).intake = s.intake ∧
    (captureStop b point c s).accum = s.accum ∧ (captureStop b point c s).trace.bg = s.trace.bg ∧
    (captureStop b point c s).trace.view = s.trace.view ∧
    (captureStop b point c s).trace.summary = s.trace.summary ∧
    (captureStop b point c s).trace.squeezed = s.trace.squeezed ∧ (captureStop b point c s).verdict = s.verdict ∧
    (captureStop b point c s).findings.post = s.findings.post ∧
    (captureStop b point c s).findings.taken = s.findings.taken ∧
    (captureStop b point c s).findings.sweepEndNotice = s.findings.sweepEndNotice ∧
    (captureStop b point c s).mirror = s.mirror ∧ (captureStop b point c s).path = s.path ∧
    (captureStop b point c s).mem = s.mem ∧ (captureStop b point c s).pins = s.pins ∧
    (captureStop b point c s).freeIndex = s.freeIndex ∧ (captureStop b point c s).pending = s.pending := by
  unfold captureStop
  split <;> simp

@[simp] theorem setBg_frame (b : Option Background) (s : State) :
    (setBg b s).plan = s.plan ∧ (setBg b s).seq = s.seq ∧ (setBg b s).opt = s.opt ∧ (setBg b s).intake = s.intake ∧
    (setBg b s).accum = s.accum ∧ (setBg b s).trace.view = s.trace.view ∧
    (setBg b s).trace.summary = s.trace.summary ∧ (setBg b s).trace.capture = s.trace.capture ∧
    (setBg b s).trace.squeezed = s.trace.squeezed ∧ (setBg b s).verdict = s.verdict ∧
    (setBg b s).findings = s.findings ∧ (setBg b s).path = s.path ∧ (setBg b s).mem = s.mem ∧
    (setBg b s).pins = s.pins ∧ (setBg b s).freeIndex = s.freeIndex ∧ (setBg b s).pending = s.pending := by
  simp [setBg]

@[simp] theorem reportResult_frame (k : SlotIx) (r : Result) (s : State) :
    (reportResult k r s).plan = s.plan ∧ (reportResult k r s).seq.state = s.seq.state ∧
    (reportResult k r s).seq.sweepNumber = s.seq.sweepNumber ∧ (reportResult k r s).seq.acq = s.seq.acq ∧
    (reportResult k r s).seq.outcomes = s.seq.outcomes ∧ (reportResult k r s).opt = s.opt ∧
    (reportResult k r s).intake = s.intake ∧ (reportResult k r s).accum = s.accum ∧
    (reportResult k r s).trace = s.trace ∧ (reportResult k r s).verdict = s.verdict ∧
    (reportResult k r s).findings = s.findings ∧ (reportResult k r s).mirror = s.mirror ∧
    (reportResult k r s).path = s.path ∧ (reportResult k r s).mem = s.mem ∧ (reportResult k r s).pins = s.pins ∧
    (reportResult k r s).freeIndex = s.freeIndex ∧ (reportResult k r s).pending = s.pending := by
  unfold reportResult
  repeat' split
  all_goals simp

@[simp] theorem endCompare_frame (b : Background) (r : Result) (s : State) :
    (endCompare b r s).plan.lastCommand = s.plan.lastCommand ∧
    (endCompare b r s).plan.pendingCopy = s.plan.pendingCopy ∧ (endCompare b r s).seq.state = s.seq.state ∧
    (endCompare b r s).seq.sweepNumber = s.seq.sweepNumber ∧ (endCompare b r s).seq.acq = s.seq.acq ∧
    (endCompare b r s).seq.outcomes = s.seq.outcomes ∧ (endCompare b r s).opt = s.opt ∧
    (endCompare b r s).intake = s.intake ∧ (endCompare b r s).accum.lock = s.accum.lock ∧
    (endCompare b r s).accum.queue = s.accum.queue ∧ (endCompare b r s).accum.add = s.accum.add ∧
    (endCompare b r s).trace.view = s.trace.view ∧ (endCompare b r s).trace.summary = s.trace.summary ∧
    (endCompare b r s).trace.capture = s.trace.capture ∧ (endCompare b r s).trace.squeezed = s.trace.squeezed ∧
    (endCompare b r s).findings.post = s.findings.post ∧ (endCompare b r s).findings.taken = s.findings.taken ∧
    (endCompare b r s).findings.sweepEndNotice = s.findings.sweepEndNotice ∧
    (endCompare b r s).path.pass = s.path.pass ∧ (endCompare b r s).path.passCount = s.path.passCount ∧
    (endCompare b r s).path.waiting = s.path.waiting ∧ (endCompare b r s).path.strayAccess = s.path.strayAccess ∧
    (endCompare b r s).path.guardHit = s.path.guardHit ∧ (endCompare b r s).path.readData = s.path.readData ∧
    (endCompare b r s).mem = s.mem ∧ (endCompare b r s).pins = s.pins ∧ (endCompare b r s).freeIndex = s.freeIndex ∧
    (endCompare b r s).pending = s.pending := by
  unfold endCompare
  split <;> simp

@[simp] theorem endAdopt_frame (b : Background) (s : State) :
    (endAdopt b s).plan.lastCommand = s.plan.lastCommand ∧ (endAdopt b s).plan.pendingCopy = s.plan.pendingCopy ∧
    (endAdopt b s).seq = s.seq ∧ (endAdopt b s).opt = s.opt ∧ (endAdopt b s).intake = s.intake ∧
    (endAdopt b s).accum.lock = s.accum.lock ∧ (endAdopt b s).accum.queue = s.accum.queue ∧
    (endAdopt b s).accum.add = s.accum.add ∧ (endAdopt b s).trace.view = s.trace.view ∧
    (endAdopt b s).trace.summary = s.trace.summary ∧ (endAdopt b s).trace.capture = s.trace.capture ∧
    (endAdopt b s).trace.squeezed = s.trace.squeezed ∧ (endAdopt b s).findings.post = s.findings.post ∧
    (endAdopt b s).findings.taken = s.findings.taken ∧ (endAdopt b s).findings.queue = s.findings.queue ∧
    (endAdopt b s).findings.sweepEndNotice = s.findings.sweepEndNotice ∧ (endAdopt b s).path.pass = s.path.pass ∧
    (endAdopt b s).path.passCount = s.path.passCount ∧ (endAdopt b s).path.waiting = s.path.waiting ∧
    (endAdopt b s).path.strayAccess = s.path.strayAccess ∧ (endAdopt b s).path.guardHit = s.path.guardHit ∧
    (endAdopt b s).path.readData = s.path.readData ∧ (endAdopt b s).mem = s.mem ∧ (endAdopt b s).pins = s.pins ∧
    (endAdopt b s).freeIndex = s.freeIndex ∧ (endAdopt b s).pending = s.pending := by
  simp [endAdopt]

@[simp] theorem completeAdopt_frame (b : Background) (s : State) :
    (completeAdopt b s).plan.lastCommand = s.plan.lastCommand ∧
    (completeAdopt b s).plan.pendingCopy = s.plan.pendingCopy ∧ (completeAdopt b s).seq = s.seq ∧
    (completeAdopt b s).opt = s.opt ∧ (completeAdopt b s).intake = s.intake ∧
    (completeAdopt b s).accum.lock = s.accum.lock ∧ (completeAdopt b s).accum.queue = s.accum.queue ∧
    (completeAdopt b s).accum.add = s.accum.add ∧ (completeAdopt b s).trace.view = s.trace.view ∧
    (completeAdopt b s).trace.summary = s.trace.summary ∧ (completeAdopt b s).trace.capture = s.trace.capture ∧
    (completeAdopt b s).trace.squeezed = s.trace.squeezed ∧ (completeAdopt b s).findings.post = s.findings.post ∧
    (completeAdopt b s).findings.taken = s.findings.taken ∧ (completeAdopt b s).findings.queue = s.findings.queue ∧
    (completeAdopt b s).findings.sweepEndNotice = s.findings.sweepEndNotice ∧
    (completeAdopt b s).path.pass = s.path.pass ∧ (completeAdopt b s).path.passCount = s.path.passCount ∧
    (completeAdopt b s).path.waiting = s.path.waiting ∧ (completeAdopt b s).path.strayAccess = s.path.strayAccess ∧
    (completeAdopt b s).path.guardHit = s.path.guardHit ∧ (completeAdopt b s).path.readData = s.path.readData ∧
    (completeAdopt b s).mem = s.mem ∧ (completeAdopt b s).pins = s.pins ∧
    (completeAdopt b s).freeIndex = s.freeIndex ∧ (completeAdopt b s).pending = s.pending := by
  simp [completeAdopt]

@[simp] theorem stopOperation_frame (b : Background) (point : Nat) (c : Condition) (s : State) :
    (stopOperation b point c s).plan.lastCommand = s.plan.lastCommand ∧
    (stopOperation b point c s).plan.pendingCopy = s.plan.pendingCopy ∧
    (stopOperation b point c s).seq.state = s.seq.state ∧
    (stopOperation b point c s).seq.sweepNumber = s.seq.sweepNumber ∧
    (stopOperation b point c s).seq.acq = s.seq.acq ∧ (stopOperation b point c s).seq.outcomes = s.seq.outcomes ∧
    (stopOperation b point c s).opt = s.opt ∧ (stopOperation b point c s).intake = s.intake ∧
    (stopOperation b point c s).accum.lock = s.accum.lock ∧
    (stopOperation b point c s).accum.queue = s.accum.queue ∧ (stopOperation b point c s).accum.add = s.accum.add ∧
    (stopOperation b point c s).trace.view = s.trace.view ∧
    (stopOperation b point c s).trace.summary = s.trace.summary ∧
    (stopOperation b point c s).trace.squeezed = s.trace.squeezed ∧
    (stopOperation b point c s).findings.post = s.findings.post ∧
    (stopOperation b point c s).findings.taken = s.findings.taken ∧
    (stopOperation b point c s).findings.sweepEndNotice = s.findings.sweepEndNotice ∧
    (stopOperation b point c s).path.pass = s.path.pass ∧
    (stopOperation b point c s).path.passCount = s.path.passCount ∧
    (stopOperation b point c s).path.waiting = s.path.waiting ∧
    (stopOperation b point c s).path.strayAccess = s.path.strayAccess ∧
    (stopOperation b point c s).path.guardHit = s.path.guardHit ∧
    (stopOperation b point c s).path.readData = s.path.readData ∧ (stopOperation b point c s).mem = s.mem ∧
    (stopOperation b point c s).pins = s.pins ∧ (stopOperation b point c s).freeIndex = s.freeIndex ∧
    (stopOperation b point c s).pending = s.pending := by
  unfold stopOperation
  split <;> simp

@[simp] theorem meetCondition_frame (c : Condition) (b : Background) (point : Nat) (s : State) :
    (meetCondition c b point s).1.plan.lastCommand = s.plan.lastCommand ∧
    (meetCondition c b point s).1.plan.pendingCopy = s.plan.pendingCopy ∧
    (meetCondition c b point s).1.seq.state = s.seq.state ∧
    (meetCondition c b point s).1.seq.sweepNumber = s.seq.sweepNumber ∧
    (meetCondition c b point s).1.seq.acq = s.seq.acq ∧
    (meetCondition c b point s).1.seq.outcomes = s.seq.outcomes ∧ (meetCondition c b point s).1.opt = s.opt ∧
    (meetCondition c b point s).1.intake = s.intake ∧ (meetCondition c b point s).1.accum.lock = s.accum.lock ∧
    (meetCondition c b point s).1.accum.queue = s.accum.queue ∧
    (meetCondition c b point s).1.accum.add = s.accum.add ∧
    (meetCondition c b point s).1.trace.view = s.trace.view ∧
    (meetCondition c b point s).1.trace.squeezed = s.trace.squeezed ∧
    (meetCondition c b point s).1.findings.post = s.findings.post ∧
    (meetCondition c b point s).1.findings.taken = s.findings.taken ∧
    (meetCondition c b point s).1.findings.sweepEndNotice = s.findings.sweepEndNotice ∧
    (meetCondition c b point s).1.path.pass = s.path.pass ∧
    (meetCondition c b point s).1.path.passCount = s.path.passCount ∧
    (meetCondition c b point s).1.path.waiting = s.path.waiting ∧
    (meetCondition c b point s).1.path.strayAccess = s.path.strayAccess ∧
    (meetCondition c b point s).1.path.guardHit = s.path.guardHit ∧
    (meetCondition c b point s).1.path.readData = s.path.readData ∧ (meetCondition c b point s).1.mem = s.mem ∧
    (meetCondition c b point s).1.pins = s.pins ∧ (meetCondition c b point s).1.freeIndex = s.freeIndex ∧
    (meetCondition c b point s).1.pending = s.pending := by
  unfold meetCondition
  repeat' split
  all_goals simp

@[simp] theorem testCondition_frame (holds : Bool) (c : Condition) (b : Background) (point : Nat) (s : State) :
    (testCondition holds c b point s).1.plan.lastCommand = s.plan.lastCommand ∧
    (testCondition holds c b point s).1.plan.pendingCopy = s.plan.pendingCopy ∧
    (testCondition holds c b point s).1.seq.state = s.seq.state ∧
    (testCondition holds c b point s).1.seq.sweepNumber = s.seq.sweepNumber ∧
    (testCondition holds c b point s).1.seq.acq = s.seq.acq ∧
    (testCondition holds c b point s).1.seq.outcomes = s.seq.outcomes ∧
    (testCondition holds c b point s).1.opt = s.opt ∧ (testCondition holds c b point s).1.intake = s.intake ∧
    (testCondition holds c b point s).1.accum.lock = s.accum.lock ∧
    (testCondition holds c b point s).1.accum.queue = s.accum.queue ∧
    (testCondition holds c b point s).1.accum.add = s.accum.add ∧
    (testCondition holds c b point s).1.trace.view = s.trace.view ∧
    (testCondition holds c b point s).1.trace.squeezed = s.trace.squeezed ∧
    (testCondition holds c b point s).1.findings.post = s.findings.post ∧
    (testCondition holds c b point s).1.findings.taken = s.findings.taken ∧
    (testCondition holds c b point s).1.findings.sweepEndNotice = s.findings.sweepEndNotice ∧
    (testCondition holds c b point s).1.path.pass = s.path.pass ∧
    (testCondition holds c b point s).1.path.passCount = s.path.passCount ∧
    (testCondition holds c b point s).1.path.waiting = s.path.waiting ∧
    (testCondition holds c b point s).1.path.strayAccess = s.path.strayAccess ∧
    (testCondition holds c b point s).1.path.guardHit = s.path.guardHit ∧
    (testCondition holds c b point s).1.path.readData = s.path.readData ∧
    (testCondition holds c b point s).1.mem = s.mem ∧ (testCondition holds c b point s).1.pins = s.pins ∧
    (testCondition holds c b point s).1.freeIndex = s.freeIndex ∧
    (testCondition holds c b point s).1.pending = s.pending := by
  unfold testCondition
  split <;> simp

@[simp] theorem finishCompare_frame (b : Background) (s : State) :
    (finishCompare b s).plan.lastCommand = s.plan.lastCommand ∧
    (finishCompare b s).plan.pendingCopy = s.plan.pendingCopy ∧ (finishCompare b s).seq.state = s.seq.state ∧
    (finishCompare b s).seq.sweepNumber = s.seq.sweepNumber ∧ (finishCompare b s).seq.acq = s.seq.acq ∧
    (finishCompare b s).seq.outcomes = s.seq.outcomes ∧ (finishCompare b s).opt = s.opt ∧
    (finishCompare b s).intake = s.intake ∧ (finishCompare b s).accum.lock = s.accum.lock ∧
    (finishCompare b s).accum.queue = s.accum.queue ∧ (finishCompare b s).accum.add = s.accum.add ∧
    (finishCompare b s).trace.view = s.trace.view ∧ (finishCompare b s).trace.summary = s.trace.summary ∧
    (finishCompare b s).trace.capture = s.trace.capture ∧ (finishCompare b s).trace.squeezed = s.trace.squeezed ∧
    (finishCompare b s).findings.post = s.findings.post ∧ (finishCompare b s).findings.taken = s.findings.taken ∧
    (finishCompare b s).findings.sweepEndNotice = s.findings.sweepEndNotice ∧
    (finishCompare b s).path.pass = s.path.pass ∧ (finishCompare b s).path.passCount = s.path.passCount ∧
    (finishCompare b s).path.waiting = s.path.waiting ∧ (finishCompare b s).path.strayAccess = s.path.strayAccess ∧
    (finishCompare b s).path.guardHit = s.path.guardHit ∧ (finishCompare b s).path.readData = s.path.readData ∧
    (finishCompare b s).mem = s.mem ∧ (finishCompare b s).pins = s.pins ∧
    (finishCompare b s).freeIndex = s.freeIndex ∧ (finishCompare b s).pending = s.pending := by
  simp [finishCompare]

@[simp] theorem startCompare_frame (op : BgOp) (k : SlotIx) (shots : Nat) (clipped : Bool) (s : State) :
    (startCompare op k shots clipped s).plan.lastCommand = s.plan.lastCommand ∧
    (startCompare op k shots clipped s).plan.pendingCopy = s.plan.pendingCopy ∧
    (startCompare op k shots clipped s).seq.state = s.seq.state ∧
    (startCompare op k shots clipped s).seq.sweepNumber = s.seq.sweepNumber ∧
    (startCompare op k shots clipped s).seq.acq = s.seq.acq ∧
    (startCompare op k shots clipped s).seq.outcomes = s.seq.outcomes ∧
    (startCompare op k shots clipped s).opt = s.opt ∧ (startCompare op k shots clipped s).intake = s.intake ∧
    (startCompare op k shots clipped s).accum.lock = s.accum.lock ∧
    (startCompare op k shots clipped s).accum.queue = s.accum.queue ∧
    (startCompare op k shots clipped s).accum.add = s.accum.add ∧
    (startCompare op k shots clipped s).trace.view = s.trace.view ∧
    (startCompare op k shots clipped s).trace.squeezed = s.trace.squeezed ∧
    (startCompare op k shots clipped s).findings.post = s.findings.post ∧
    (startCompare op k shots clipped s).findings.taken = s.findings.taken ∧
    (startCompare op k shots clipped s).findings.sweepEndNotice = s.findings.sweepEndNotice ∧
    (startCompare op k shots clipped s).path.pass = s.path.pass ∧
    (startCompare op k shots clipped s).path.passCount = s.path.passCount ∧
    (startCompare op k shots clipped s).path.waiting = s.path.waiting ∧
    (startCompare op k shots clipped s).path.strayAccess = s.path.strayAccess ∧
    (startCompare op k shots clipped s).path.guardHit = s.path.guardHit ∧
    (startCompare op k shots clipped s).path.readData = s.path.readData ∧
    (startCompare op k shots clipped s).mem = s.mem ∧ (startCompare op k shots clipped s).pins = s.pins ∧
    (startCompare op k shots clipped s).freeIndex = s.freeIndex ∧
    (startCompare op k shots clipped s).pending = s.pending := by
  unfold startCompare onGoing
  dsimp only
  repeat' split
  all_goals simp

@[simp] theorem startCompareRun_frame (k : SlotIx) (s : State) :
    (startCompareRun k s).plan.lastCommand = s.plan.lastCommand ∧
    (startCompareRun k s).plan.pendingCopy = s.plan.pendingCopy ∧ (startCompareRun k s).seq.state = s.seq.state ∧
    (startCompareRun k s).seq.sweepNumber = s.seq.sweepNumber ∧ (startCompareRun k s).seq.acq = s.seq.acq ∧
    (startCompareRun k s).seq.outcomes = s.seq.outcomes ∧ (startCompareRun k s).opt = s.opt ∧
    (startCompareRun k s).intake = s.intake ∧ (startCompareRun k s).accum.lock = s.accum.lock ∧
    (startCompareRun k s).accum.queue = s.accum.queue ∧ (startCompareRun k s).accum.add = s.accum.add ∧
    (startCompareRun k s).trace.view = s.trace.view ∧ (startCompareRun k s).trace.squeezed = s.trace.squeezed ∧
    (startCompareRun k s).findings.post = s.findings.post ∧
    (startCompareRun k s).findings.taken = s.findings.taken ∧
    (startCompareRun k s).findings.sweepEndNotice = s.findings.sweepEndNotice ∧
    (startCompareRun k s).path.pass = s.path.pass ∧ (startCompareRun k s).path.passCount = s.path.passCount ∧
    (startCompareRun k s).path.waiting = s.path.waiting ∧
    (startCompareRun k s).path.strayAccess = s.path.strayAccess ∧
    (startCompareRun k s).path.guardHit = s.path.guardHit ∧ (startCompareRun k s).path.readData = s.path.readData ∧
    (startCompareRun k s).mem = s.mem ∧ (startCompareRun k s).pins = s.pins ∧
    (startCompareRun k s).freeIndex = s.freeIndex ∧ (startCompareRun k s).pending = s.pending := by
  simp [startCompareRun]

@[simp] theorem startCompareCommand_frame (k : SlotIx) (s : State) :
    (startCompareCommand k s).plan.lastCommand = s.plan.lastCommand ∧
    (startCompareCommand k s).plan.pendingCopy = s.plan.pendingCopy ∧
    (startCompareCommand k s).seq.state = s.seq.state ∧
    (startCompareCommand k s).seq.sweepNumber = s.seq.sweepNumber ∧ (startCompareCommand k s).seq.acq = s.seq.acq ∧
    (startCompareCommand k s).seq.outcomes = s.seq.outcomes ∧ (startCompareCommand k s).opt = s.opt ∧
    (startCompareCommand k s).intake = s.intake ∧ (startCompareCommand k s).accum.lock = s.accum.lock ∧
    (startCompareCommand k s).accum.queue = s.accum.queue ∧ (startCompareCommand k s).accum.add = s.accum.add ∧
    (startCompareCommand k s).trace.view = s.trace.view ∧
    (startCompareCommand k s).trace.squeezed = s.trace.squeezed ∧
    (startCompareCommand k s).findings.post = s.findings.post ∧
    (startCompareCommand k s).findings.taken = s.findings.taken ∧
    (startCompareCommand k s).findings.sweepEndNotice = s.findings.sweepEndNotice ∧
    (startCompareCommand k s).path.pass = s.path.pass ∧
    (startCompareCommand k s).path.passCount = s.path.passCount ∧
    (startCompareCommand k s).path.waiting = s.path.waiting ∧
    (startCompareCommand k s).path.strayAccess = s.path.strayAccess ∧
    (startCompareCommand k s).path.guardHit = s.path.guardHit ∧
    (startCompareCommand k s).path.readData = s.path.readData ∧ (startCompareCommand k s).mem = s.mem ∧
    (startCompareCommand k s).pins = s.pins ∧ (startCompareCommand k s).freeIndex = s.freeIndex ∧
    (startCompareCommand k s).pending = s.pending := by
  simp [startCompareCommand]

@[simp] theorem clearSharedBased_frame (k : SlotIx) (s : State) :
    (clearSharedBased k s).plan = s.plan ∧ (clearSharedBased k s).seq = s.seq ∧ (clearSharedBased k s).opt = s.opt ∧
    (clearSharedBased k s).intake = s.intake ∧ (clearSharedBased k s).accum = s.accum ∧
    (clearSharedBased k s).trace = s.trace ∧ (clearSharedBased k s).findings = s.findings ∧
    (clearSharedBased k s).mirror = s.mirror ∧ (clearSharedBased k s).path = s.path ∧
    (clearSharedBased k s).mem = s.mem ∧ (clearSharedBased k s).pins = s.pins ∧
    (clearSharedBased k s).freeIndex = s.freeIndex ∧ (clearSharedBased k s).pending = s.pending := by
  simp [clearSharedBased]

@[simp] theorem startAdopt_frame (k : SlotIx) (s : State) :
    (startAdopt k s).plan.lastCommand = s.plan.lastCommand ∧
    (startAdopt k s).plan.pendingCopy = s.plan.pendingCopy ∧ (startAdopt k s).seq.state = s.seq.state ∧
    (startAdopt k s).seq.sweepNumber = s.seq.sweepNumber ∧ (startAdopt k s).seq.acq = s.seq.acq ∧
    (startAdopt k s).seq.outcomes = s.seq.outcomes ∧ (startAdopt k s).opt = s.opt ∧
    (startAdopt k s).intake = s.intake ∧ (startAdopt k s).accum.lock = s.accum.lock ∧
    (startAdopt k s).accum.queue = s.accum.queue ∧ (startAdopt k s).accum.add = s.accum.add ∧
    (startAdopt k s).trace.view = s.trace.view ∧ (startAdopt k s).trace.squeezed = s.trace.squeezed ∧
    (startAdopt k s).findings.post = s.findings.post ∧ (startAdopt k s).findings.taken = s.findings.taken ∧
    (startAdopt k s).findings.sweepEndNotice = s.findings.sweepEndNotice ∧
    (startAdopt k s).path.pass = s.path.pass ∧ (startAdopt k s).path.passCount = s.path.passCount ∧
    (startAdopt k s).path.waiting = s.path.waiting ∧ (startAdopt k s).path.strayAccess = s.path.strayAccess ∧
    (startAdopt k s).path.guardHit = s.path.guardHit ∧ (startAdopt k s).path.readData = s.path.readData ∧
    (startAdopt k s).mem = s.mem ∧ (startAdopt k s).pins = s.pins ∧ (startAdopt k s).freeIndex = s.freeIndex ∧
    (startAdopt k s).pending = s.pending := by
  unfold startAdopt onGoing
  dsimp only
  split <;> simp

@[simp] theorem nextComparePoint_frame (b : Background) (s : State) :
    (nextComparePoint b s).plan.lastCommand = s.plan.lastCommand ∧
    (nextComparePoint b s).plan.pendingCopy = s.plan.pendingCopy ∧ (nextComparePoint b s).seq.state = s.seq.state ∧
    (nextComparePoint b s).seq.sweepNumber = s.seq.sweepNumber ∧ (nextComparePoint b s).seq.acq = s.seq.acq ∧
    (nextComparePoint b s).seq.outcomes = s.seq.outcomes ∧ (nextComparePoint b s).opt = s.opt ∧
    (nextComparePoint b s).intake = s.intake ∧ (nextComparePoint b s).accum.lock = s.accum.lock ∧
    (nextComparePoint b s).accum.queue = s.accum.queue ∧ (nextComparePoint b s).accum.add = s.accum.add ∧
    (nextComparePoint b s).trace.view = s.trace.view ∧ (nextComparePoint b s).trace.summary = s.trace.summary ∧
    (nextComparePoint b s).trace.capture = s.trace.capture ∧
    (nextComparePoint b s).trace.squeezed = s.trace.squeezed ∧
    (nextComparePoint b s).findings.post = s.findings.post ∧
    (nextComparePoint b s).findings.taken = s.findings.taken ∧
    (nextComparePoint b s).findings.sweepEndNotice = s.findings.sweepEndNotice ∧
    (nextComparePoint b s).path.pass = s.path.pass ∧ (nextComparePoint b s).path.passCount = s.path.passCount ∧
    (nextComparePoint b s).path.waiting = s.path.waiting ∧
    (nextComparePoint b s).path.strayAccess = s.path.strayAccess ∧
    (nextComparePoint b s).path.guardHit = s.path.guardHit ∧
    (nextComparePoint b s).path.readData = s.path.readData ∧ (nextComparePoint b s).mem = s.mem ∧
    (nextComparePoint b s).pins = s.pins ∧ (nextComparePoint b s).freeIndex = s.freeIndex ∧
    (nextComparePoint b s).pending = s.pending := by
  unfold nextComparePoint
  split <;> simp

@[simp] theorem comparePoint_frame (b : Background) (acc : Word) (base : Word) (s : State) :
    (comparePoint b acc base s).plan.lastCommand = s.plan.lastCommand ∧
    (comparePoint b acc base s).plan.pendingCopy = s.plan.pendingCopy ∧
    (comparePoint b acc base s).seq.state = s.seq.state ∧
    (comparePoint b acc base s).seq.sweepNumber = s.seq.sweepNumber ∧
    (comparePoint b acc base s).seq.acq = s.seq.acq ∧ (comparePoint b acc base s).seq.outcomes = s.seq.outcomes ∧
    (comparePoint b acc base s).opt = s.opt ∧ (comparePoint b acc base s).intake = s.intake ∧
    (comparePoint b acc base s).accum.lock = s.accum.lock ∧
    (comparePoint b acc base s).accum.queue = s.accum.queue ∧ (comparePoint b acc base s).accum.add = s.accum.add ∧
    (comparePoint b acc base s).trace.view = s.trace.view ∧
    (comparePoint b acc base s).trace.squeezed = s.trace.squeezed ∧
    (comparePoint b acc base s).findings.post = s.findings.post ∧
    (comparePoint b acc base s).findings.taken = s.findings.taken ∧
    (comparePoint b acc base s).findings.sweepEndNotice = s.findings.sweepEndNotice ∧
    (comparePoint b acc base s).path.pass = s.path.pass ∧
    (comparePoint b acc base s).path.passCount = s.path.passCount ∧
    (comparePoint b acc base s).path.waiting = s.path.waiting ∧
    (comparePoint b acc base s).path.strayAccess = s.path.strayAccess ∧
    (comparePoint b acc base s).path.guardHit = s.path.guardHit ∧
    (comparePoint b acc base s).path.readData = s.path.readData ∧ (comparePoint b acc base s).mem = s.mem ∧
    (comparePoint b acc base s).pins = s.pins ∧ (comparePoint b acc base s).freeIndex = s.freeIndex ∧
    (comparePoint b acc base s).pending = s.pending := by
  unfold comparePoint onGoing
  dsimp only
  repeat' split
  all_goals simp

@[simp] theorem adoptRead_frame (b : Background) (acc : Word) (s : State) :
    (adoptRead b acc s).plan.lastCommand = s.plan.lastCommand ∧
    (adoptRead b acc s).plan.pendingCopy = s.plan.pendingCopy ∧ (adoptRead b acc s).seq.state = s.seq.state ∧
    (adoptRead b acc s).seq.sweepNumber = s.seq.sweepNumber ∧ (adoptRead b acc s).seq.acq = s.seq.acq ∧
    (adoptRead b acc s).seq.outcomes = s.seq.outcomes ∧ (adoptRead b acc s).opt = s.opt ∧
    (adoptRead b acc s).intake = s.intake ∧ (adoptRead b acc s).accum.lock = s.accum.lock ∧
    (adoptRead b acc s).accum.queue = s.accum.queue ∧ (adoptRead b acc s).accum.add = s.accum.add ∧
    (adoptRead b acc s).trace.view = s.trace.view ∧ (adoptRead b acc s).trace.squeezed = s.trace.squeezed ∧
    (adoptRead b acc s).findings.post = s.findings.post ∧ (adoptRead b acc s).findings.taken = s.findings.taken ∧
    (adoptRead b acc s).findings.sweepEndNotice = s.findings.sweepEndNotice ∧
    (adoptRead b acc s).path.pass = s.path.pass ∧ (adoptRead b acc s).path.passCount = s.path.passCount ∧
    (adoptRead b acc s).path.waiting = s.path.waiting ∧ (adoptRead b acc s).path.strayAccess = s.path.strayAccess ∧
    (adoptRead b acc s).path.guardHit = s.path.guardHit ∧ (adoptRead b acc s).path.readData = s.path.readData ∧
    (adoptRead b acc s).mem = s.mem ∧ (adoptRead b acc s).pins = s.pins ∧
    (adoptRead b acc s).freeIndex = s.freeIndex ∧ (adoptRead b acc s).pending = s.pending := by
  unfold adoptRead onGoing
  split <;> simp

@[simp] theorem endAdoptIfCleared_frame (a : Nat) (before : State) (after : State) :
    (endAdoptIfCleared a before after).plan.lastCommand = after.plan.lastCommand ∧
    (endAdoptIfCleared a before after).plan.pendingCopy = after.plan.pendingCopy ∧
    (endAdoptIfCleared a before after).seq = after.seq ∧ (endAdoptIfCleared a before after).opt = after.opt ∧
    (endAdoptIfCleared a before after).intake = after.intake ∧
    (endAdoptIfCleared a before after).accum.lock = after.accum.lock ∧
    (endAdoptIfCleared a before after).accum.queue = after.accum.queue ∧
    (endAdoptIfCleared a before after).accum.add = after.accum.add ∧
    (endAdoptIfCleared a before after).trace.view = after.trace.view ∧
    (endAdoptIfCleared a before after).trace.summary = after.trace.summary ∧
    (endAdoptIfCleared a before after).trace.capture = after.trace.capture ∧
    (endAdoptIfCleared a before after).trace.squeezed = after.trace.squeezed ∧
    (endAdoptIfCleared a before after).findings.post = after.findings.post ∧
    (endAdoptIfCleared a before after).findings.taken = after.findings.taken ∧
    (endAdoptIfCleared a before after).findings.queue = after.findings.queue ∧
    (endAdoptIfCleared a before after).findings.sweepEndNotice = after.findings.sweepEndNotice ∧
    (endAdoptIfCleared a before after).path.pass = after.path.pass ∧
    (endAdoptIfCleared a before after).path.passCount = after.path.passCount ∧
    (endAdoptIfCleared a before after).path.waiting = after.path.waiting ∧
    (endAdoptIfCleared a before after).path.strayAccess = after.path.strayAccess ∧
    (endAdoptIfCleared a before after).path.guardHit = after.path.guardHit ∧
    (endAdoptIfCleared a before after).path.readData = after.path.readData ∧
    (endAdoptIfCleared a before after).mem = after.mem ∧ (endAdoptIfCleared a before after).pins = after.pins ∧
    (endAdoptIfCleared a before after).freeIndex = after.freeIndex ∧
    (endAdoptIfCleared a before after).pending = after.pending := by
  unfold endAdoptIfCleared
  repeat' split
  all_goals simp

@[simp] theorem ownWrite_frame (a : Nat) (w : Word) (ownAcc : Option SlotIx) (ownBase : Option SlotIx) (s : State) :
    (ownWrite a w ownAcc ownBase s).plan.lastCommand = s.plan.lastCommand ∧
    (ownWrite a w ownAcc ownBase s).plan.pendingCopy = s.plan.pendingCopy ∧
    (ownWrite a w ownAcc ownBase s).seq = s.seq ∧ (ownWrite a w ownAcc ownBase s).opt = s.opt ∧
    (ownWrite a w ownAcc ownBase s).intake = s.intake ∧ (ownWrite a w ownAcc ownBase s).accum.lock = s.accum.lock ∧
    (ownWrite a w ownAcc ownBase s).accum.queue = s.accum.queue ∧
    (ownWrite a w ownAcc ownBase s).accum.add = s.accum.add ∧
    (ownWrite a w ownAcc ownBase s).trace.view = s.trace.view ∧
    (ownWrite a w ownAcc ownBase s).trace.summary = s.trace.summary ∧
    (ownWrite a w ownAcc ownBase s).trace.capture = s.trace.capture ∧
    (ownWrite a w ownAcc ownBase s).trace.squeezed = s.trace.squeezed ∧
    (ownWrite a w ownAcc ownBase s).findings.post = s.findings.post ∧
    (ownWrite a w ownAcc ownBase s).findings.taken = s.findings.taken ∧
    (ownWrite a w ownAcc ownBase s).findings.queue = s.findings.queue ∧
    (ownWrite a w ownAcc ownBase s).findings.sweepEndNotice = s.findings.sweepEndNotice ∧
    (ownWrite a w ownAcc ownBase s).path.pass = s.path.pass ∧
    (ownWrite a w ownAcc ownBase s).path.passCount = s.path.passCount ∧
    (ownWrite a w ownAcc ownBase s).path.waiting = s.path.waiting ∧
    (ownWrite a w ownAcc ownBase s).path.strayAccess = s.path.strayAccess ∧
    (ownWrite a w ownAcc ownBase s).path.guardHit = s.path.guardHit ∧
    (ownWrite a w ownAcc ownBase s).path.readData = s.path.readData ∧
    (ownWrite a w ownAcc ownBase s).pins = s.pins ∧ (ownWrite a w ownAcc ownBase s).freeIndex = s.freeIndex ∧
    (ownWrite a w ownAcc ownBase s).pending = s.pending := by
  unfold ownWrite
  split <;> simp

@[simp] theorem nextAdoptPoint_frame (b : Background) (s : State) :
    (nextAdoptPoint b s).plan.lastCommand = s.plan.lastCommand ∧
    (nextAdoptPoint b s).plan.pendingCopy = s.plan.pendingCopy ∧ (nextAdoptPoint b s).seq = s.seq ∧
    (nextAdoptPoint b s).opt = s.opt ∧ (nextAdoptPoint b s).intake = s.intake ∧
    (nextAdoptPoint b s).accum.lock = s.accum.lock ∧ (nextAdoptPoint b s).accum.queue = s.accum.queue ∧
    (nextAdoptPoint b s).accum.add = s.accum.add ∧ (nextAdoptPoint b s).trace.view = s.trace.view ∧
    (nextAdoptPoint b s).trace.summary = s.trace.summary ∧ (nextAdoptPoint b s).trace.capture = s.trace.capture ∧
    (nextAdoptPoint b s).trace.squeezed = s.trace.squeezed ∧ (nextAdoptPoint b s).findings.post = s.findings.post ∧
    (nextAdoptPoint b s).findings.taken = s.findings.taken ∧
    (nextAdoptPoint b s).findings.queue = s.findings.queue ∧
    (nextAdoptPoint b s).findings.sweepEndNotice = s.findings.sweepEndNotice ∧
    (nextAdoptPoint b s).path.pass = s.path.pass ∧ (nextAdoptPoint b s).path.passCount = s.path.passCount ∧
    (nextAdoptPoint b s).path.waiting = s.path.waiting ∧
    (nextAdoptPoint b s).path.strayAccess = s.path.strayAccess ∧
    (nextAdoptPoint b s).path.guardHit = s.path.guardHit ∧ (nextAdoptPoint b s).path.readData = s.path.readData ∧
    (nextAdoptPoint b s).mem = s.mem ∧ (nextAdoptPoint b s).pins = s.pins ∧
    (nextAdoptPoint b s).freeIndex = s.freeIndex ∧ (nextAdoptPoint b s).pending = s.pending := by
  unfold nextAdoptPoint
  split <;> simp

@[simp] theorem adoptWrite_frame (b : Background) (s : State) :
    (adoptWrite b s).plan.lastCommand = s.plan.lastCommand ∧
    (adoptWrite b s).plan.pendingCopy = s.plan.pendingCopy ∧ (adoptWrite b s).seq = s.seq ∧
    (adoptWrite b s).opt = s.opt ∧ (adoptWrite b s).intake = s.intake ∧ (adoptWrite b s).accum.lock = s.accum.lock ∧
    (adoptWrite b s).accum.queue = s.accum.queue ∧ (adoptWrite b s).accum.add = s.accum.add ∧
    (adoptWrite b s).trace.view = s.trace.view ∧ (adoptWrite b s).trace.summary = s.trace.summary ∧
    (adoptWrite b s).trace.capture = s.trace.capture ∧ (adoptWrite b s).trace.squeezed = s.trace.squeezed ∧
    (adoptWrite b s).findings.post = s.findings.post ∧ (adoptWrite b s).findings.taken = s.findings.taken ∧
    (adoptWrite b s).findings.queue = s.findings.queue ∧
    (adoptWrite b s).findings.sweepEndNotice = s.findings.sweepEndNotice ∧
    (adoptWrite b s).path.pass = s.path.pass ∧ (adoptWrite b s).path.passCount = s.path.passCount ∧
    (adoptWrite b s).path.waiting = s.path.waiting ∧ (adoptWrite b s).path.strayAccess = s.path.strayAccess ∧
    (adoptWrite b s).path.guardHit = s.path.guardHit ∧ (adoptWrite b s).path.readData = s.path.readData ∧
    (adoptWrite b s).pins = s.pins ∧ (adoptWrite b s).freeIndex = s.freeIndex ∧
    (adoptWrite b s).pending = s.pending := by
  unfold adoptWrite
  generalize hw : ownWrite (baseAddress b) (adoptWord b (pointAcc b)) none (some b.slot) s = s1
  dsimp only
  cases h : s1.accum.ready[b.slot] <;> (subst hw; split <;> simp)

@[simp] theorem traceWordGranted_frame (b : Background) (s : State) :
    (traceWordGranted b s).plan.lastCommand = s.plan.lastCommand ∧
    (traceWordGranted b s).plan.pendingCopy = s.plan.pendingCopy ∧ (traceWordGranted b s).seq.state = s.seq.state ∧
    (traceWordGranted b s).seq.sweepNumber = s.seq.sweepNumber ∧ (traceWordGranted b s).seq.acq = s.seq.acq ∧
    (traceWordGranted b s).seq.outcomes = s.seq.outcomes ∧ (traceWordGranted b s).opt = s.opt ∧
    (traceWordGranted b s).intake = s.intake ∧ (traceWordGranted b s).accum.lock = s.accum.lock ∧
    (traceWordGranted b s).accum.queue = s.accum.queue ∧ (traceWordGranted b s).accum.add = s.accum.add ∧
    (traceWordGranted b s).trace.view = s.trace.view ∧ (traceWordGranted b s).trace.squeezed = s.trace.squeezed ∧
    (traceWordGranted b s).findings.post = s.findings.post ∧
    (traceWordGranted b s).findings.taken = s.findings.taken ∧
    (traceWordGranted b s).findings.sweepEndNotice = s.findings.sweepEndNotice ∧
    (traceWordGranted b s).path.pass = s.path.pass ∧ (traceWordGranted b s).path.passCount = s.path.passCount ∧
    (traceWordGranted b s).path.waiting = s.path.waiting ∧
    (traceWordGranted b s).path.strayAccess = s.path.strayAccess ∧
    (traceWordGranted b s).path.guardHit = s.path.guardHit ∧
    (traceWordGranted b s).path.readData = s.path.readData ∧ (traceWordGranted b s).pins = s.pins ∧
    (traceWordGranted b s).freeIndex = s.freeIndex ∧ (traceWordGranted b s).pending = s.pending := by
  unfold traceWordGranted
  repeat' split
  all_goals simp

@[simp] theorem wordlessPoint_frame (b : Background) (s : State) :
    (wordlessPoint b s).plan.lastCommand = s.plan.lastCommand ∧
    (wordlessPoint b s).plan.pendingCopy = s.plan.pendingCopy ∧ (wordlessPoint b s).seq.state = s.seq.state ∧
    (wordlessPoint b s).seq.sweepNumber = s.seq.sweepNumber ∧ (wordlessPoint b s).seq.acq = s.seq.acq ∧
    (wordlessPoint b s).seq.outcomes = s.seq.outcomes ∧ (wordlessPoint b s).opt = s.opt ∧
    (wordlessPoint b s).intake = s.intake ∧ (wordlessPoint b s).accum.lock = s.accum.lock ∧
    (wordlessPoint b s).accum.queue = s.accum.queue ∧ (wordlessPoint b s).accum.add = s.accum.add ∧
    (wordlessPoint b s).trace.view = s.trace.view ∧ (wordlessPoint b s).trace.squeezed = s.trace.squeezed ∧
    (wordlessPoint b s).findings.post = s.findings.post ∧ (wordlessPoint b s).findings.taken = s.findings.taken ∧
    (wordlessPoint b s).findings.sweepEndNotice = s.findings.sweepEndNotice ∧
    (wordlessPoint b s).path.pass = s.path.pass ∧ (wordlessPoint b s).path.passCount = s.path.passCount ∧
    (wordlessPoint b s).path.waiting = s.path.waiting ∧ (wordlessPoint b s).path.strayAccess = s.path.strayAccess ∧
    (wordlessPoint b s).path.guardHit = s.path.guardHit ∧ (wordlessPoint b s).path.readData = s.path.readData ∧
    (wordlessPoint b s).mem = s.mem ∧ (wordlessPoint b s).pins = s.pins ∧
    (wordlessPoint b s).freeIndex = s.freeIndex ∧ (wordlessPoint b s).pending = s.pending := by
  unfold wordlessPoint
  split <;> simp

@[simp] theorem endCompareRun_frame (k : SlotIx) (s : State) :
    (endCompareRun k s).plan = s.plan ∧ (endCompareRun k s).seq = s.seq ∧ (endCompareRun k s).opt = s.opt ∧
    (endCompareRun k s).intake = s.intake ∧ (endCompareRun k s).accum = s.accum ∧
    (endCompareRun k s).trace.view = s.trace.view ∧ (endCompareRun k s).trace.summary = s.trace.summary ∧
    (endCompareRun k s).trace.capture = s.trace.capture ∧ (endCompareRun k s).trace.squeezed = s.trace.squeezed ∧
    (endCompareRun k s).verdict = s.verdict ∧ (endCompareRun k s).findings = s.findings ∧
    (endCompareRun k s).path = s.path ∧ (endCompareRun k s).mem = s.mem ∧ (endCompareRun k s).pins = s.pins ∧
    (endCompareRun k s).freeIndex = s.freeIndex ∧ (endCompareRun k s).pending = s.pending := by
  unfold endCompareRun
  repeat' split
  all_goals simp

@[simp] theorem endBackground_frame (s : State) :
    (endBackground s).plan = s.plan ∧ (endBackground s).seq = s.seq ∧ (endBackground s).opt = s.opt ∧
    (endBackground s).intake = s.intake ∧ (endBackground s).accum = s.accum ∧
    (endBackground s).trace.view = s.trace.view ∧ (endBackground s).trace.summary = s.trace.summary ∧
    (endBackground s).trace.capture = s.trace.capture ∧ (endBackground s).trace.squeezed = s.trace.squeezed ∧
    (endBackground s).verdict = s.verdict ∧ (endBackground s).findings = s.findings ∧
    (endBackground s).path.pass = s.path.pass ∧ (endBackground s).path.passCount = s.path.passCount ∧
    (endBackground s).path.waiting = s.path.waiting ∧ (endBackground s).path.strayAccess = s.path.strayAccess ∧
    (endBackground s).path.guardHit = s.path.guardHit ∧ (endBackground s).path.readData = s.path.readData ∧
    (endBackground s).mem = s.mem ∧ (endBackground s).pins = s.pins ∧ (endBackground s).freeIndex = s.freeIndex ∧
    (endBackground s).pending = s.pending := by
  unfold endBackground
  split <;> simp

/-! ### Machine/Optical.lean -/

@[simp] theorem setBuffer_frame (i : BufIx) (b : Buffer) (s : State) :
    (setBuffer i b s).plan = s.plan ∧ (setBuffer i b s).seq = s.seq ∧ (setBuffer i b s).opt = s.opt ∧
    (setBuffer i b s).intake.stray = s.intake.stray ∧ (setBuffer i b s).intake.accepted = s.intake.accepted ∧
    (setBuffer i b s).intake.outstanding = s.intake.outstanding ∧ (setBuffer i b s).accum = s.accum ∧
    (setBuffer i b s).trace = s.trace ∧ (setBuffer i b s).verdict = s.verdict ∧
    (setBuffer i b s).findings = s.findings ∧ (setBuffer i b s).mirror = s.mirror ∧
    (setBuffer i b s).path = s.path ∧ (setBuffer i b s).mem = s.mem ∧ (setBuffer i b s).pins = s.pins ∧
    (setBuffer i b s).freeIndex = s.freeIndex ∧ (setBuffer i b s).pending = s.pending := by
  unfold setBuffer
  split <;> simp

@[simp] theorem selectPort_frame (p : BitVec 6) (s : State) :
    (selectPort p s).plan = s.plan ∧ (selectPort p s).seq = s.seq ∧ (selectPort p s).opt.warm = s.opt.warm ∧
    (selectPort p s).opt.warmUpTimer = s.opt.warmUpTimer ∧
    (selectPort p s).opt.warmHoldTimer = s.opt.warmHoldTimer ∧ (selectPort p s).opt.dutyTimer = s.opt.dutyTimer ∧
    (selectPort p s).opt.dutyCount = s.opt.dutyCount ∧ (selectPort p s).opt.strobes = s.opt.strobes ∧
    (selectPort p s).intake = s.intake ∧ (selectPort p s).accum = s.accum ∧ (selectPort p s).trace = s.trace ∧
    (selectPort p s).verdict = s.verdict ∧ (selectPort p s).findings = s.findings ∧
    (selectPort p s).mirror = s.mirror ∧ (selectPort p s).path = s.path ∧ (selectPort p s).mem = s.mem ∧
    (selectPort p s).pins = s.pins ∧ (selectPort p s).freeIndex = s.freeIndex ∧
    (selectPort p s).pending = s.pending := by
  unfold selectPort
  split <;> simp

@[simp] theorem parkSwitch_frame (s : State) :
    (parkSwitch s).plan = s.plan ∧ (parkSwitch s).seq = s.seq ∧ (parkSwitch s).opt.warm = s.opt.warm ∧
    (parkSwitch s).opt.warmUpTimer = s.opt.warmUpTimer ∧ (parkSwitch s).opt.warmHoldTimer = s.opt.warmHoldTimer ∧
    (parkSwitch s).opt.dutyTimer = s.opt.dutyTimer ∧ (parkSwitch s).opt.dutyCount = s.opt.dutyCount ∧
    (parkSwitch s).opt.strobes = s.opt.strobes ∧ (parkSwitch s).intake = s.intake ∧ (parkSwitch s).accum = s.accum ∧
    (parkSwitch s).trace = s.trace ∧ (parkSwitch s).verdict = s.verdict ∧ (parkSwitch s).findings = s.findings ∧
    (parkSwitch s).mirror = s.mirror ∧ (parkSwitch s).path = s.path ∧ (parkSwitch s).mem = s.mem ∧
    (parkSwitch s).pins = s.pins ∧ (parkSwitch s).freeIndex = s.freeIndex ∧ (parkSwitch s).pending = s.pending := by
  simp [parkSwitch]

@[simp] theorem stopSettle_frame (s : State) :
    (stopSettle s).plan = s.plan ∧ (stopSettle s).seq = s.seq ∧ (stopSettle s).opt.warm = s.opt.warm ∧
    (stopSettle s).opt.warmUpTimer = s.opt.warmUpTimer ∧ (stopSettle s).opt.warmHoldTimer = s.opt.warmHoldTimer ∧
    (stopSettle s).opt.dutyTimer = s.opt.dutyTimer ∧ (stopSettle s).opt.dutyCount = s.opt.dutyCount ∧
    (stopSettle s).opt.port = s.opt.port ∧ (stopSettle s).opt.strobes = s.opt.strobes ∧
    (stopSettle s).intake = s.intake ∧ (stopSettle s).accum = s.accum ∧ (stopSettle s).trace = s.trace ∧
    (stopSettle s).verdict = s.verdict ∧ (stopSettle s).findings = s.findings ∧ (stopSettle s).mirror = s.mirror ∧
    (stopSettle s).path = s.path ∧ (stopSettle s).mem = s.mem ∧ (stopSettle s).pins = s.pins ∧
    (stopSettle s).freeIndex = s.freeIndex ∧ (stopSettle s).pending = s.pending := by
  simp [stopSettle]

@[simp] theorem coldSource_frame (source : BitVec 2) (s : State) :
    (coldSource source s).plan = s.plan ∧ (coldSource source s).seq = s.seq ∧
    (coldSource source s).opt.dutyTimer = s.opt.dutyTimer ∧ (coldSource source s).opt.dutyCount = s.opt.dutyCount ∧
    (coldSource source s).opt.port = s.opt.port ∧ (coldSource source s).opt.strobes = s.opt.strobes ∧
    (coldSource source s).intake = s.intake ∧ (coldSource source s).accum = s.accum ∧
    (coldSource source s).trace = s.trace ∧ (coldSource source s).verdict = s.verdict ∧
    (coldSource source s).findings = s.findings ∧ (coldSource source s).mirror = s.mirror ∧
    (coldSource source s).path = s.path ∧ (coldSource source s).mem = s.mem ∧ (coldSource source s).pins = s.pins ∧
    (coldSource source s).freeIndex = s.freeIndex ∧ (coldSource source s).pending = s.pending := by
  simp [coldSource]

@[simp] theorem coldAll_frame (s : State) :
    (coldAll s).plan = s.plan ∧ (coldAll s).seq = s.seq ∧ (coldAll s).opt.dutyTimer = s.opt.dutyTimer ∧
    (coldAll s).opt.dutyCount = s.opt.dutyCount ∧ (coldAll s).opt.port = s.opt.port ∧
    (coldAll s).opt.strobes = s.opt.strobes ∧ (coldAll s).intake = s.intake ∧ (coldAll s).accum = s.accum ∧
    (coldAll s).trace = s.trace ∧ (coldAll s).verdict = s.verdict ∧ (coldAll s).findings = s.findings ∧
    (coldAll s).mirror = s.mirror ∧ (coldAll s).path = s.path ∧ (coldAll s).mem = s.mem ∧
    (coldAll s).pins = s.pins ∧ (coldAll s).freeIndex = s.freeIndex ∧ (coldAll s).pending = s.pending := by
  simp [coldAll]

@[simp] theorem warmSource_frame (source : BitVec 2) (s : State) :
    (warmSource source s).plan = s.plan ∧ (warmSource source s).seq = s.seq ∧
    (warmSource source s).opt.dutyTimer = s.opt.dutyTimer ∧ (warmSource source s).opt.dutyCount = s.opt.dutyCount ∧
    (warmSource source s).opt.port = s.opt.port ∧ (warmSource source s).opt.strobes = s.opt.strobes ∧
    (warmSource source s).intake = s.intake ∧ (warmSource source s).accum = s.accum ∧
    (warmSource source s).trace = s.trace ∧ (warmSource source s).verdict = s.verdict ∧
    (warmSource source s).findings = s.findings ∧ (warmSource source s).mirror = s.mirror ∧
    (warmSource source s).path = s.path ∧ (warmSource source s).mem = s.mem ∧ (warmSource source s).pins = s.pins ∧
    (warmSource source s).freeIndex = s.freeIndex ∧ (warmSource source s).pending = s.pending := by
  unfold warmSource
  split <;> simp

@[simp] theorem spacingElapsed_frame (s : State) :
    (spacingElapsed s).plan = s.plan ∧ (spacingElapsed s).seq = s.seq ∧ (spacingElapsed s).opt.warm = s.opt.warm ∧
    (spacingElapsed s).opt.warmUpTimer = s.opt.warmUpTimer ∧
    (spacingElapsed s).opt.warmHoldTimer = s.opt.warmHoldTimer ∧
    (spacingElapsed s).opt.dutyTimer = s.opt.dutyTimer ∧ (spacingElapsed s).opt.dutyCount = s.opt.dutyCount ∧
    (spacingElapsed s).opt.port = s.opt.port ∧ (spacingElapsed s).opt.strobes = s.opt.strobes ∧
    (spacingElapsed s).intake = s.intake ∧ (spacingElapsed s).accum = s.accum ∧ (spacingElapsed s).trace = s.trace ∧
    (spacingElapsed s).verdict = s.verdict ∧ (spacingElapsed s).findings = s.findings ∧
    (spacingElapsed s).mirror = s.mirror ∧ (spacingElapsed s).path = s.path ∧ (spacingElapsed s).mem = s.mem ∧
    (spacingElapsed s).pins = s.pins ∧ (spacingElapsed s).freeIndex = s.freeIndex ∧
    (spacingElapsed s).pending = s.pending := by
  simp [spacingElapsed]

@[simp] theorem deassertTestActive_frame (s : State) :
    (deassertTestActive s).plan = s.plan ∧ (deassertTestActive s).seq = s.seq ∧
    (deassertTestActive s).opt.warm = s.opt.warm ∧ (deassertTestActive s).opt.warmUpTimer = s.opt.warmUpTimer ∧
    (deassertTestActive s).opt.warmHoldTimer = s.opt.warmHoldTimer ∧
    (deassertTestActive s).opt.dutyTimer = s.opt.dutyTimer ∧
    (deassertTestActive s).opt.dutyCount = s.opt.dutyCount ∧ (deassertTestActive s).opt.port = s.opt.port ∧
    (deassertTestActive s).opt.strobes = s.opt.strobes ∧ (deassertTestActive s).intake = s.intake ∧
    (deassertTestActive s).accum = s.accum ∧ (deassertTestActive s).trace = s.trace ∧
    (deassertTestActive s).verdict = s.verdict ∧ (deassertTestActive s).findings = s.findings ∧
    (deassertTestActive s).mirror = s.mirror ∧ (deassertTestActive s).path = s.path ∧
    (deassertTestActive s).mem = s.mem ∧ (deassertTestActive s).pins = s.pins ∧
    (deassertTestActive s).freeIndex = s.freeIndex ∧ (deassertTestActive s).pending = s.pending := by
  simp [deassertTestActive]

@[simp] theorem leaveLane_frame (source : BitVec 2) (s : State) :
    (leaveLane source s).plan = s.plan ∧ (leaveLane source s).seq = s.seq ∧
    (leaveLane source s).opt.dutyTimer = s.opt.dutyTimer ∧ (leaveLane source s).opt.dutyCount = s.opt.dutyCount ∧
    (leaveLane source s).opt.port = s.opt.port ∧ (leaveLane source s).opt.strobes = s.opt.strobes ∧
    (leaveLane source s).intake = s.intake ∧ (leaveLane source s).accum = s.accum ∧
    (leaveLane source s).trace = s.trace ∧ (leaveLane source s).verdict = s.verdict ∧
    (leaveLane source s).findings = s.findings ∧ (leaveLane source s).mirror = s.mirror ∧
    (leaveLane source s).path = s.path ∧ (leaveLane source s).mem = s.mem ∧ (leaveLane source s).pins = s.pins ∧
    (leaveLane source s).freeIndex = s.freeIndex ∧ (leaveLane source s).pending = s.pending := by
  unfold leaveLane
  split <;> simp

@[simp] theorem opticalEntry_frame (k : SlotIx) (s : State) :
    (opticalEntry k s).plan = s.plan ∧ (opticalEntry k s).seq = s.seq ∧
    (opticalEntry k s).opt.dutyTimer = s.opt.dutyTimer ∧ (opticalEntry k s).opt.dutyCount = s.opt.dutyCount ∧
    (opticalEntry k s).opt.strobes = s.opt.strobes ∧ (opticalEntry k s).intake = s.intake ∧
    (opticalEntry k s).accum = s.accum ∧ (opticalEntry k s).trace = s.trace ∧
    (opticalEntry k s).verdict = s.verdict ∧ (opticalEntry k s).findings = s.findings ∧
    (opticalEntry k s).mirror = s.mirror ∧ (opticalEntry k s).path = s.path ∧ (opticalEntry k s).mem = s.mem ∧
    (opticalEntry k s).pins = s.pins ∧ (opticalEntry k s).freeIndex = s.freeIndex ∧
    (opticalEntry k s).pending = s.pending := by
  unfold opticalEntry
  split <;> simp

@[simp] theorem fire_frame (k : SlotIx) (s : State) :
    (fire k s).plan = s.plan ∧ (fire k s).seq = s.seq ∧ (fire k s).opt.warm = s.opt.warm ∧
    (fire k s).opt.warmUpTimer = s.opt.warmUpTimer ∧ (fire k s).opt.warmHoldTimer = s.opt.warmHoldTimer ∧
    (fire k s).opt.dutyTimer = s.opt.dutyTimer ∧ (fire k s).opt.port = s.opt.port ∧
    (fire k s).intake.stray = s.intake.stray ∧ (fire k s).intake.accepted = s.intake.accepted ∧
    (fire k s).accum = s.accum ∧ (fire k s).trace = s.trace ∧ (fire k s).verdict = s.verdict ∧
    (fire k s).findings = s.findings ∧ (fire k s).mirror = s.mirror ∧ (fire k s).path = s.path ∧
    (fire k s).mem = s.mem ∧ (fire k s).pins = s.pins ∧ (fire k s).freeIndex = s.freeIndex ∧
    (fire k s).pending = s.pending := by
  simp [fire]

@[simp] theorem testFire_frame (s : State) :
    (testFire s).plan = s.plan ∧ (testFire s).seq.state = s.seq.state ∧
    (testFire s).seq.sweepNumber = s.seq.sweepNumber ∧ (testFire s).seq.comp = s.seq.comp ∧
    (testFire s).seq.outcomes = s.seq.outcomes ∧ (testFire s).opt.warm = s.opt.warm ∧
    (testFire s).opt.warmUpTimer = s.opt.warmUpTimer ∧ (testFire s).opt.warmHoldTimer = s.opt.warmHoldTimer ∧
    (testFire s).opt.dutyTimer = s.opt.dutyTimer ∧ (testFire s).opt.port = s.opt.port ∧
    (testFire s).intake.stray = s.intake.stray ∧ (testFire s).intake.accepted = s.intake.accepted ∧
    (testFire s).accum = s.accum ∧ (testFire s).trace = s.trace ∧ (testFire s).verdict = s.verdict ∧
    (testFire s).findings = s.findings ∧ (testFire s).path = s.path ∧ (testFire s).mem = s.mem ∧
    (testFire s).pins = s.pins ∧ (testFire s).freeIndex = s.freeIndex ∧ (testFire s).pending = s.pending := by
  unfold testFire
  repeat' split
  all_goals simp

/-! ### Machine/View.lean -/

@[simp] theorem setLock_frame (k : SlotIx) (l : LockState) (s : State) :
    (setLock k l s).plan = s.plan ∧ (setLock k l s).seq = s.seq ∧ (setLock k l s).opt = s.opt ∧
    (setLock k l s).intake = s.intake ∧ (setLock k l s).accum.ready = s.accum.ready ∧
    (setLock k l s).accum.queue = s.accum.queue ∧ (setLock k l s).accum.add = s.accum.add ∧
    (setLock k l s).trace = s.trace ∧ (setLock k l s).verdict = s.verdict ∧ (setLock k l s).findings = s.findings ∧
    (setLock k l s).mirror = s.mirror ∧ (setLock k l s).path = s.path ∧ (setLock k l s).mem = s.mem ∧
    (setLock k l s).pins = s.pins ∧ (setLock k l s).freeIndex = s.freeIndex ∧
    (setLock k l s).pending = s.pending := by
  simp [setLock]

@[simp] theorem testAdd_frame (s : State) :
    (testAdd s).plan = s.plan ∧ (testAdd s).seq = s.seq ∧ (testAdd s).opt = s.opt ∧ (testAdd s).intake = s.intake ∧
    (testAdd s).accum.ready = s.accum.ready ∧ (testAdd s).trace = s.trace ∧ (testAdd s).verdict = s.verdict ∧
    (testAdd s).findings = s.findings ∧ (testAdd s).mirror = s.mirror ∧ (testAdd s).path = s.path ∧
    (testAdd s).mem = s.mem ∧ (testAdd s).pins = s.pins ∧ (testAdd s).freeIndex = s.freeIndex ∧
    (testAdd s).pending = s.pending := by
  unfold testAdd
  repeat' split
  all_goals simp

@[simp] theorem releaseByView_frame (k : SlotIx) (s : State) :
    (releaseByView k s).plan = s.plan ∧ (releaseByView k s).seq = s.seq ∧ (releaseByView k s).opt = s.opt ∧
    (releaseByView k s).intake = s.intake ∧ (releaseByView k s).accum.ready = s.accum.ready ∧
    (releaseByView k s).trace = s.trace ∧ (releaseByView k s).verdict = s.verdict ∧
    (releaseByView k s).findings = s.findings ∧ (releaseByView k s).mirror = s.mirror ∧
    (releaseByView k s).path = s.path ∧ (releaseByView k s).mem = s.mem ∧ (releaseByView k s).pins = s.pins ∧
    (releaseByView k s).freeIndex = s.freeIndex ∧ (releaseByView k s).pending = s.pending := by
  simp [releaseByView]

@[simp] theorem answerView_frame (w : Word × Bool) (s : State) :
    (answerView w s).plan = s.plan ∧ (answerView w s).seq = s.seq ∧ (answerView w s).opt = s.opt ∧
    (answerView w s).intake = s.intake ∧ (answerView w s).accum = s.accum ∧ (answerView w s).trace.bg = s.trace.bg ∧
    (answerView w s).trace.summary = s.trace.summary ∧ (answerView w s).trace.capture = s.trace.capture ∧
    (answerView w s).verdict = s.verdict ∧ (answerView w s).findings = s.findings ∧
    (answerView w s).mirror = s.mirror ∧ (answerView w s).path.pass = s.path.pass ∧
    (answerView w s).path.passCount = s.path.passCount ∧ (answerView w s).path.waiting = s.path.waiting ∧
    (answerView w s).path.guards = s.path.guards ∧ (answerView w s).path.strayAccess = s.path.strayAccess ∧
    (answerView w s).path.guardHit = s.path.guardHit ∧ (answerView w s).mem = s.mem ∧
    (answerView w s).pins = s.pins ∧ (answerView w s).freeIndex = s.freeIndex ∧
    (answerView w s).pending = s.pending := by
  simp [answerView]

@[simp] theorem advanceView_frame
    (a : Access) (f : ViewFields) (shots : Nat) (had : Nat) (words : List Word) (s : State) :
    (advanceView a f shots had words s).plan = s.plan ∧ (advanceView a f shots had words s).seq = s.seq ∧
    (advanceView a f shots had words s).opt = s.opt ∧ (advanceView a f shots had words s).intake = s.intake ∧
    (advanceView a f shots had words s).accum.ready = s.accum.ready ∧
    (advanceView a f shots had words s).trace.bg = s.trace.bg ∧
    (advanceView a f shots had words s).trace.summary = s.trace.summary ∧
    (advanceView a f shots had words s).trace.capture = s.trace.capture ∧
    (advanceView a f shots had words s).verdict = s.verdict ∧
    (advanceView a f shots had words s).findings = s.findings ∧
    (advanceView a f shots had words s).mirror = s.mirror ∧
    (advanceView a f shots had words s).path.pass = s.path.pass ∧
    (advanceView a f shots had words s).path.passCount = s.path.passCount ∧
    (advanceView a f shots had words s).path.waiting = s.path.waiting ∧
    (advanceView a f shots had words s).path.guards = s.path.guards ∧
    (advanceView a f shots had words s).path.strayAccess = s.path.strayAccess ∧
    (advanceView a f shots had words s).path.guardHit = s.path.guardHit ∧
    (advanceView a f shots had words s).mem = s.mem ∧ (advanceView a f shots had words s).pins = s.pins ∧
    (advanceView a f shots had words s).freeIndex = s.freeIndex ∧
    (advanceView a f shots had words s).pending = s.pending := by
  unfold advanceView
  dsimp only
  repeat' split
  all_goals simp

@[simp] theorem lockView_frame (a : Access) (f : ViewFields) (s : State) :
    (lockView a f s).plan = s.plan ∧ (lockView a f s).seq = s.seq ∧ (lockView a f s).opt = s.opt ∧
    (lockView a f s).intake = s.intake ∧ (lockView a f s).accum.ready = s.accum.ready ∧
    (lockView a f s).trace.bg = s.trace.bg ∧ (lockView a f s).trace.summary = s.trace.summary ∧
    (lockView a f s).trace.capture = s.trace.capture ∧ (lockView a f s).verdict = s.verdict ∧
    (lockView a f s).findings = s.findings ∧ (lockView a f s).mirror = s.mirror ∧
    (lockView a f s).path.pass = s.path.pass ∧ (lockView a f s).path.passCount = s.path.passCount ∧
    (lockView a f s).path.waiting = s.path.waiting ∧ (lockView a f s).path.guards = s.path.guards ∧
    (lockView a f s).path.strayAccess = s.path.strayAccess ∧ (lockView a f s).path.guardHit = s.path.guardHit ∧
    (lockView a f s).mem = s.mem ∧ (lockView a f s).pins = s.pins ∧ (lockView a f s).freeIndex = s.freeIndex ∧
    (lockView a f s).pending = s.pending := by
  unfold lockView
  dsimp only
  split <;> simp

@[simp] theorem takeUpView_frame (a : Access) (s : State) :
    (takeUpView a s).plan = s.plan ∧ (takeUpView a s).seq = s.seq ∧ (takeUpView a s).opt = s.opt ∧
    (takeUpView a s).intake = s.intake ∧ (takeUpView a s).accum.ready = s.accum.ready ∧
    (takeUpView a s).trace.bg = s.trace.bg ∧ (takeUpView a s).trace.summary = s.trace.summary ∧
    (takeUpView a s).trace.capture = s.trace.capture ∧ (takeUpView a s).verdict = s.verdict ∧
    (takeUpView a s).findings = s.findings ∧ (takeUpView a s).mirror = s.mirror ∧
    (takeUpView a s).path.pass = s.path.pass ∧ (takeUpView a s).path.passCount = s.path.passCount ∧
    (takeUpView a s).path.waiting = s.path.waiting ∧ (takeUpView a s).path.guards = s.path.guards ∧
    (takeUpView a s).path.strayAccess = s.path.strayAccess ∧ (takeUpView a s).path.guardHit = s.path.guardHit ∧
    (takeUpView a s).mem = s.mem ∧ (takeUpView a s).pins = s.pins ∧ (takeUpView a s).freeIndex = s.freeIndex ∧
    (takeUpView a s).pending = s.pending := by
  unfold takeUpView
  dsimp only
  repeat' split
  all_goals simp

@[simp] theorem releaseByAdd_frame (k : SlotIx) (s : State) :
    (releaseByAdd k s).plan = s.plan ∧ (releaseByAdd k s).seq = s.seq ∧ (releaseByAdd k s).opt = s.opt ∧
    (releaseByAdd k s).intake = s.intake ∧ (releaseByAdd k s).accum.ready = s.accum.ready ∧
    (releaseByAdd k s).trace.bg = s.trace.bg ∧ (releaseByAdd k s).trace.summary = s.trace.summary ∧
    (releaseByAdd k s).trace.capture = s.trace.capture ∧ (releaseByAdd k s).verdict = s.verdict ∧
    (releaseByAdd k s).findings = s.findings ∧ (releaseByAdd k s).mirror = s.mirror ∧
    (releaseByAdd k s).path.pass = s.path.pass ∧ (releaseByAdd k s).path.passCount = s.path.passCount ∧
    (releaseByAdd k s).path.waiting = s.path.waiting ∧ (releaseByAdd k s).path.guards = s.path.guards ∧
    (releaseByAdd k s).path.strayAccess = s.path.strayAccess ∧ (releaseByAdd k s).path.guardHit = s.path.guardHit ∧
    (releaseByAdd k s).mem = s.mem ∧ (releaseByAdd k s).pins = s.pins ∧ (releaseByAdd k s).pending = s.pending := by
  unfold releaseByAdd
  dsimp only
  repeat' split
  all_goals simp

@[simp] theorem pumpTrace_frame (a : Nat) (s : State) :
    (pumpTrace a s).plan.lastCommand = s.plan.lastCommand ∧ (pumpTrace a s).plan.pendingCopy = s.plan.pendingCopy ∧
    (pumpTrace a s).seq.state = s.seq.state ∧ (pumpTrace a s).seq.sweepNumber = s.seq.sweepNumber ∧
    (pumpTrace a s).seq.acq = s.seq.acq ∧ (pumpTrace a s).seq.outcomes = s.seq.outcomes ∧
    (pumpTrace a s).opt = s.opt ∧ (pumpTrace a s).intake = s.intake ∧
    (pumpTrace a s).findings.post = s.findings.post ∧ (pumpTrace a s).findings.taken = s.findings.taken ∧
    (pumpTrace a s).findings.sweepEndNotice = s.findings.sweepEndNotice ∧ (pumpTrace a s).path.pass = s.path.pass ∧
    (pumpTrace a s).path.passCount = s.path.passCount ∧ (pumpTrace a s).path.waiting = s.path.waiting ∧
    (pumpTrace a s).path.strayAccess = s.path.strayAccess ∧ (pumpTrace a s).path.guardHit = s.path.guardHit ∧
    (pumpTrace a s).mem = s.mem ∧ (pumpTrace a s).pins = s.pins ∧ (pumpTrace a s).freeIndex = s.freeIndex ∧
    (pumpTrace a s).pending = s.pending := by
  induction a generalizing s with
  | _ =>
    unfold pumpTrace
    repeat' split
    all_goals simp_all

@[simp] theorem runTrace_frame (s : State) :
    (runTrace s).plan.lastCommand = s.plan.lastCommand ∧ (runTrace s).plan.pendingCopy = s.plan.pendingCopy ∧
    (runTrace s).seq.state = s.seq.state ∧ (runTrace s).seq.sweepNumber = s.seq.sweepNumber ∧
    (runTrace s).seq.acq = s.seq.acq ∧ (runTrace s).seq.outcomes = s.seq.outcomes ∧ (runTrace s).opt = s.opt ∧
    (runTrace s).intake = s.intake ∧ (runTrace s).findings.post = s.findings.post ∧
    (runTrace s).findings.taken = s.findings.taken ∧
    (runTrace s).findings.sweepEndNotice = s.findings.sweepEndNotice ∧ (runTrace s).path.pass = s.path.pass ∧
    (runTrace s).path.passCount = s.path.passCount ∧ (runTrace s).path.waiting = s.path.waiting ∧
    (runTrace s).path.strayAccess = s.path.strayAccess ∧ (runTrace s).path.guardHit = s.path.guardHit ∧
    (runTrace s).mem = s.mem ∧ (runTrace s).pins = s.pins ∧ (runTrace s).freeIndex = s.freeIndex ∧
    (runTrace s).pending = s.pending := by
  simp [runTrace]

@[simp] theorem arriveView_frame (a : Access) (s : State) :
    (arriveView a s).plan.lastCommand = s.plan.lastCommand ∧
    (arriveView a s).plan.pendingCopy = s.plan.pendingCopy ∧ (arriveView a s).seq.state = s.seq.state ∧
    (arriveView a s).seq.sweepNumber = s.seq.sweepNumber ∧ (arriveView a s).seq.acq = s.seq.acq ∧
    (arriveView a s).seq.outcomes = s.seq.outcomes ∧ (arriveView a s).opt = s.opt ∧
    (arriveView a s).intake = s.intake ∧ (arriveView a s).findings.post = s.findings.post ∧
    (arriveView a s).findings.taken = s.findings.taken ∧
    (arriveView a s).findings.sweepEndNotice = s.findings.sweepEndNotice ∧
    (arriveView a s).path.pass = s.path.pass ∧ (arriveView a s).path.passCount = s.path.passCount ∧
    (arriveView a s).path.waiting = s.path.waiting ∧ (arriveView a s).path.strayAccess = s.path.strayAccess ∧
    (arriveView a s).path.guardHit = s.path.guardHit ∧ (arriveView a s).mem = s.mem ∧
    (arriveView a s).pins = s.pins ∧ (arriveView a s).freeIndex = s.freeIndex ∧
    (arriveView a s).pending = s.pending := by
  unfold arriveView
  split <;> simp

@[simp] theorem viewWordGranted_frame (s : State) :
    (viewWordGranted s).plan = s.plan ∧ (viewWordGranted s).seq = s.seq ∧ (viewWordGranted s).opt = s.opt ∧
    (viewWordGranted s).intake = s.intake ∧ (viewWordGranted s).accum.ready = s.accum.ready ∧
    (viewWordGranted s).trace.bg = s.trace.bg ∧ (viewWordGranted s).trace.summary = s.trace.summary ∧
    (viewWordGranted s).trace.capture = s.trace.capture ∧ (viewWordGranted s).verdict = s.verdict ∧
    (viewWordGranted s).findings = s.findings ∧ (viewWordGranted s).mirror = s.mirror ∧
    (viewWordGranted s).path.pass = s.path.pass ∧ (viewWordGranted s).path.passCount = s.path.passCount ∧
    (viewWordGranted s).path.waiting = s.path.waiting ∧ (viewWordGranted s).path.guards = s.path.guards ∧
    (viewWordGranted s).path.strayAccess = s.path.strayAccess ∧
    (viewWordGranted s).path.guardHit = s.path.guardHit ∧ (viewWordGranted s).mem = s.mem ∧
    (viewWordGranted s).pins = s.pins ∧ (viewWordGranted s).freeIndex = s.freeIndex ∧
    (viewWordGranted s).pending = s.pending := by
  unfold viewWordGranted
  repeat' split
  all_goals simp

end Sys2Proof.Machine
end

