-- ==== Sys2Proof/Laws/FramesRuns.lean ====
section
/-! SUPPORT. Frames: which fields of the state the operations leave unchanged: those of
the Accumulation Engine, Shot Intake and the Sweep Sequencer.
One lemma an operation, in the order of the definitions, each used by those after it. -/

namespace Sys2Proof.Machine

/-! ### Machine/Accumulation.lean -/

@[simp] theorem awaitCompare_frame (h : Held) (s : State) :
    (awaitCompare h s).plan = s.plan ∧ (awaitCompare h s).seq.state = s.seq.state ∧
    (awaitCompare h s).seq.sweepNumber = s.seq.sweepNumber ∧ (awaitCompare h s).seq.comp = s.seq.comp ∧
    (awaitCompare h s).seq.outcomes = s.seq.outcomes ∧ (awaitCompare h s).opt.warm = s.opt.warm ∧
    (awaitCompare h s).opt.warmUpTimer = s.opt.warmUpTimer ∧
    (awaitCompare h s).opt.warmHoldTimer = s.opt.warmHoldTimer ∧
    (awaitCompare h s).opt.dutyTimer = s.opt.dutyTimer ∧ (awaitCompare h s).opt.dutyCount = s.opt.dutyCount ∧
    (awaitCompare h s).opt.port = s.opt.port ∧ (awaitCompare h s).opt.strobes = s.opt.strobes ∧
    (awaitCompare h s).intake = s.intake ∧ (awaitCompare h s).accum = s.accum ∧ (awaitCompare h s).trace = s.trace ∧
    (awaitCompare h s).verdict = s.verdict ∧ (awaitCompare h s).findings = s.findings ∧
    (awaitCompare h s).mirror = s.mirror ∧ (awaitCompare h s).path = s.path ∧ (awaitCompare h s).mem = s.mem ∧
    (awaitCompare h s).pins = s.pins ∧ (awaitCompare h s).freeIndex = s.freeIndex ∧
    (awaitCompare h s).pending = s.pending := by
  unfold awaitCompare
  split <;> simp

@[simp] theorem beginRun_frame (k : SlotIx) (s : State) :
    (beginRun k s).plan = s.plan ∧ (beginRun k s).seq = s.seq ∧ (beginRun k s).opt = s.opt ∧
    (beginRun k s).intake.stray = s.intake.stray ∧ (beginRun k s).intake.outstanding = s.intake.outstanding ∧
    (beginRun k s).accum.lock = s.accum.lock ∧ (beginRun k s).accum.queue = s.accum.queue ∧
    (beginRun k s).accum.add = s.accum.add ∧ (beginRun k s).trace.bg = s.trace.bg ∧
    (beginRun k s).trace.view = s.trace.view ∧ (beginRun k s).trace.summary = s.trace.summary ∧
    (beginRun k s).trace.capture = s.trace.capture ∧ (beginRun k s).trace.squeezed = s.trace.squeezed ∧
    (beginRun k s).verdict = s.verdict ∧ (beginRun k s).findings = s.findings ∧ (beginRun k s).mirror = s.mirror ∧
    (beginRun k s).path.pass = s.path.pass ∧ (beginRun k s).path.passCount = s.path.passCount ∧
    (beginRun k s).path.waiting = s.path.waiting ∧ (beginRun k s).path.strayAccess = s.path.strayAccess ∧
    (beginRun k s).path.guardHit = s.path.guardHit ∧ (beginRun k s).path.readData = s.path.readData ∧
    (beginRun k s).mem = s.mem ∧ (beginRun k s).pins = s.pins ∧ (beginRun k s).freeIndex = s.freeIndex ∧
    (beginRun k s).pending = s.pending := by
  simp [beginRun]

@[simp] theorem clearIntake_frame (s : State) :
    (clearIntake s).plan = s.plan ∧ (clearIntake s).seq = s.seq ∧ (clearIntake s).opt = s.opt ∧
    (clearIntake s).intake.stray = s.intake.stray ∧ (clearIntake s).intake.accepted = s.intake.accepted ∧
    (clearIntake s).accum = s.accum ∧ (clearIntake s).trace = s.trace ∧ (clearIntake s).verdict = s.verdict ∧
    (clearIntake s).findings = s.findings ∧ (clearIntake s).mirror = s.mirror ∧ (clearIntake s).path = s.path ∧
    (clearIntake s).mem = s.mem ∧ (clearIntake s).pins = s.pins ∧ (clearIntake s).freeIndex = s.freeIndex ∧
    (clearIntake s).pending = s.pending := by
  simp [clearIntake]

@[simp] theorem stopAdds_frame (s : State) :
    (stopAdds s).plan = s.plan ∧ (stopAdds s).seq = s.seq ∧ (stopAdds s).opt = s.opt ∧
    (stopAdds s).intake = s.intake ∧ (stopAdds s).accum.ready = s.accum.ready ∧ (stopAdds s).trace.bg = s.trace.bg ∧
    (stopAdds s).trace.summary = s.trace.summary ∧ (stopAdds s).trace.capture = s.trace.capture ∧
    (stopAdds s).verdict = s.verdict ∧ (stopAdds s).findings = s.findings ∧ (stopAdds s).mirror = s.mirror ∧
    (stopAdds s).path.pass = s.path.pass ∧ (stopAdds s).path.passCount = s.path.passCount ∧
    (stopAdds s).path.waiting = s.path.waiting ∧ (stopAdds s).path.guards = s.path.guards ∧
    (stopAdds s).path.strayAccess = s.path.strayAccess ∧ (stopAdds s).path.guardHit = s.path.guardHit ∧
    (stopAdds s).mem = s.mem ∧ (stopAdds s).pins = s.pins ∧ (stopAdds s).pending = s.pending := by
  unfold stopAdds
  split <;> simp

@[simp] theorem endRunOf_frame (s : State) :
    (endRunOf s).plan = s.plan ∧ (endRunOf s).seq = s.seq ∧ (endRunOf s).opt = s.opt ∧
    (endRunOf s).intake.stray = s.intake.stray ∧ (endRunOf s).intake.accepted = s.intake.accepted ∧
    (endRunOf s).accum.ready = s.accum.ready ∧ (endRunOf s).trace.bg = s.trace.bg ∧
    (endRunOf s).trace.summary = s.trace.summary ∧ (endRunOf s).trace.capture = s.trace.capture ∧
    (endRunOf s).verdict = s.verdict ∧ (endRunOf s).findings = s.findings ∧ (endRunOf s).mirror = s.mirror ∧
    (endRunOf s).path.pass = s.path.pass ∧ (endRunOf s).path.passCount = s.path.passCount ∧
    (endRunOf s).path.waiting = s.path.waiting ∧ (endRunOf s).path.guards = s.path.guards ∧
    (endRunOf s).path.strayAccess = s.path.strayAccess ∧ (endRunOf s).path.guardHit = s.path.guardHit ∧
    (endRunOf s).mem = s.mem ∧ (endRunOf s).pins = s.pins ∧ (endRunOf s).pending = s.pending := by
  simp [endRunOf]

@[simp] theorem countAdd_frame (a : AddState) (s : State) :
    (countAdd a s).plan = s.plan ∧ (countAdd a s).seq = s.seq ∧ (countAdd a s).opt = s.opt ∧
    (countAdd a s).intake.stray = s.intake.stray ∧ (countAdd a s).intake.outstanding = s.intake.outstanding ∧
    (countAdd a s).accum.ready = s.accum.ready ∧ (countAdd a s).accum.lock = s.accum.lock ∧
    (countAdd a s).accum.queue = s.accum.queue ∧ (countAdd a s).trace = s.trace ∧
    (countAdd a s).verdict = s.verdict ∧ (countAdd a s).findings = s.findings ∧ (countAdd a s).mirror = s.mirror ∧
    (countAdd a s).path = s.path ∧ (countAdd a s).mem = s.mem ∧ (countAdd a s).pins = s.pins ∧
    (countAdd a s).freeIndex = s.freeIndex ∧ (countAdd a s).pending = s.pending := by
  simp [countAdd]

@[simp] theorem targetTest_frame (k : SlotIx) (s : State) :
    (targetTest k s).plan = s.plan ∧ (targetTest k s).seq.state = s.seq.state ∧
    (targetTest k s).seq.sweepNumber = s.seq.sweepNumber ∧ (targetTest k s).seq.comp = s.seq.comp ∧
    (targetTest k s).seq.outcomes = s.seq.outcomes ∧ (targetTest k s).opt.warm = s.opt.warm ∧
    (targetTest k s).opt.warmUpTimer = s.opt.warmUpTimer ∧
    (targetTest k s).opt.warmHoldTimer = s.opt.warmHoldTimer ∧ (targetTest k s).opt.dutyTimer = s.opt.dutyTimer ∧
    (targetTest k s).opt.port = s.opt.port ∧ (targetTest k s).intake.stray = s.intake.stray ∧
    (targetTest k s).intake.accepted = s.intake.accepted ∧ (targetTest k s).accum.lock = s.accum.lock ∧
    (targetTest k s).accum.queue = s.accum.queue ∧ (targetTest k s).accum.add = s.accum.add ∧
    (targetTest k s).trace = s.trace ∧ (targetTest k s).verdict = s.verdict ∧
    (targetTest k s).findings = s.findings ∧ (targetTest k s).path = s.path ∧ (targetTest k s).mem = s.mem ∧
    (targetTest k s).pins = s.pins ∧ (targetTest k s).freeIndex = s.freeIndex ∧
    (targetTest k s).pending = s.pending := by
  unfold targetTest
  dsimp only
  repeat' split
  all_goals simp

@[simp] theorem completeAdd_frame (a : AddState) (s : State) :
    (completeAdd a s).plan = s.plan ∧ (completeAdd a s).seq.state = s.seq.state ∧
    (completeAdd a s).seq.sweepNumber = s.seq.sweepNumber ∧ (completeAdd a s).seq.comp = s.seq.comp ∧
    (completeAdd a s).seq.outcomes = s.seq.outcomes ∧ (completeAdd a s).opt.warm = s.opt.warm ∧
    (completeAdd a s).opt.warmUpTimer = s.opt.warmUpTimer ∧
    (completeAdd a s).opt.warmHoldTimer = s.opt.warmHoldTimer ∧ (completeAdd a s).opt.dutyTimer = s.opt.dutyTimer ∧
    (completeAdd a s).opt.port = s.opt.port ∧ (completeAdd a s).intake.stray = s.intake.stray ∧
    (completeAdd a s).trace.bg = s.trace.bg ∧ (completeAdd a s).trace.summary = s.trace.summary ∧
    (completeAdd a s).trace.capture = s.trace.capture ∧ (completeAdd a s).verdict = s.verdict ∧
    (completeAdd a s).findings = s.findings ∧ (completeAdd a s).path.pass = s.path.pass ∧
    (completeAdd a s).path.passCount = s.path.passCount ∧ (completeAdd a s).path.waiting = s.path.waiting ∧
    (completeAdd a s).path.guards = s.path.guards ∧ (completeAdd a s).path.strayAccess = s.path.strayAccess ∧
    (completeAdd a s).path.guardHit = s.path.guardHit ∧ (completeAdd a s).mem = s.mem ∧
    (completeAdd a s).pins = s.pins ∧ (completeAdd a s).pending = s.pending := by
  simp [completeAdd]

@[simp] theorem nextAddPoint_frame (a : AddState) (s : State) :
    (nextAddPoint a s).plan = s.plan ∧ (nextAddPoint a s).seq.state = s.seq.state ∧
    (nextAddPoint a s).seq.sweepNumber = s.seq.sweepNumber ∧ (nextAddPoint a s).seq.comp = s.seq.comp ∧
    (nextAddPoint a s).seq.outcomes = s.seq.outcomes ∧ (nextAddPoint a s).opt.warm = s.opt.warm ∧
    (nextAddPoint a s).opt.warmUpTimer = s.opt.warmUpTimer ∧
    (nextAddPoint a s).opt.warmHoldTimer = s.opt.warmHoldTimer ∧
    (nextAddPoint a s).opt.dutyTimer = s.opt.dutyTimer ∧ (nextAddPoint a s).opt.port = s.opt.port ∧
    (nextAddPoint a s).intake.stray = s.intake.stray ∧ (nextAddPoint a s).trace.bg = s.trace.bg ∧
    (nextAddPoint a s).trace.summary = s.trace.summary ∧ (nextAddPoint a s).trace.capture = s.trace.capture ∧
    (nextAddPoint a s).verdict = s.verdict ∧ (nextAddPoint a s).findings = s.findings ∧
    (nextAddPoint a s).path.pass = s.path.pass ∧ (nextAddPoint a s).path.passCount = s.path.passCount ∧
    (nextAddPoint a s).path.waiting = s.path.waiting ∧ (nextAddPoint a s).path.guards = s.path.guards ∧
    (nextAddPoint a s).path.strayAccess = s.path.strayAccess ∧ (nextAddPoint a s).path.guardHit = s.path.guardHit ∧
    (nextAddPoint a s).mem = s.mem ∧ (nextAddPoint a s).pins = s.pins ∧ (nextAddPoint a s).pending = s.pending := by
  unfold nextAddPoint
  split <;> simp

@[simp] theorem addWordGranted_frame (a : AddState) (s : State) :
    (addWordGranted a s).plan.lastCommand = s.plan.lastCommand ∧
    (addWordGranted a s).plan.pendingCopy = s.plan.pendingCopy ∧ (addWordGranted a s).seq.state = s.seq.state ∧
    (addWordGranted a s).seq.sweepNumber = s.seq.sweepNumber ∧ (addWordGranted a s).seq.comp = s.seq.comp ∧
    (addWordGranted a s).seq.outcomes = s.seq.outcomes ∧ (addWordGranted a s).opt.warm = s.opt.warm ∧
    (addWordGranted a s).opt.warmUpTimer = s.opt.warmUpTimer ∧
    (addWordGranted a s).opt.warmHoldTimer = s.opt.warmHoldTimer ∧
    (addWordGranted a s).opt.dutyTimer = s.opt.dutyTimer ∧ (addWordGranted a s).opt.port = s.opt.port ∧
    (addWordGranted a s).intake.stray = s.intake.stray ∧ (addWordGranted a s).trace.summary = s.trace.summary ∧
    (addWordGranted a s).trace.capture = s.trace.capture ∧ (addWordGranted a s).findings.post = s.findings.post ∧
    (addWordGranted a s).findings.taken = s.findings.taken ∧
    (addWordGranted a s).findings.queue = s.findings.queue ∧
    (addWordGranted a s).findings.sweepEndNotice = s.findings.sweepEndNotice ∧
    (addWordGranted a s).path.pass = s.path.pass ∧ (addWordGranted a s).path.passCount = s.path.passCount ∧
    (addWordGranted a s).path.waiting = s.path.waiting ∧
    (addWordGranted a s).path.strayAccess = s.path.strayAccess ∧
    (addWordGranted a s).path.guardHit = s.path.guardHit ∧ (addWordGranted a s).pins = s.pins ∧
    (addWordGranted a s).pending = s.pending := by
  unfold addWordGranted
  split <;> simp

/-! ### Machine/ShotIntake.lean -/

@[simp] theorem dropShot_frame (sequence : BitVec 16) (s : State) :
    (dropShot sequence s).plan = s.plan ∧ (dropShot sequence s).seq = s.seq ∧ (dropShot sequence s).opt = s.opt ∧
    (dropShot sequence s).intake.stray = s.intake.stray ∧
    (dropShot sequence s).intake.accepted = s.intake.accepted ∧ (dropShot sequence s).accum = s.accum ∧
    (dropShot sequence s).trace = s.trace ∧ (dropShot sequence s).verdict = s.verdict ∧
    (dropShot sequence s).findings = s.findings ∧ (dropShot sequence s).mirror = s.mirror ∧
    (dropShot sequence s).path = s.path ∧ (dropShot sequence s).mem = s.mem ∧ (dropShot sequence s).pins = s.pins ∧
    (dropShot sequence s).freeIndex = s.freeIndex ∧ (dropShot sequence s).pending = s.pending := by
  simp [dropShot]

@[simp] theorem failureTest_frame (s : State) :
    (failureTest s).plan = s.plan ∧ (failureTest s).seq.state = s.seq.state ∧
    (failureTest s).seq.sweepNumber = s.seq.sweepNumber ∧ (failureTest s).seq.comp = s.seq.comp ∧
    (failureTest s).seq.outcomes = s.seq.outcomes ∧ (failureTest s).opt.warm = s.opt.warm ∧
    (failureTest s).opt.warmUpTimer = s.opt.warmUpTimer ∧ (failureTest s).opt.warmHoldTimer = s.opt.warmHoldTimer ∧
    (failureTest s).opt.dutyTimer = s.opt.dutyTimer ∧ (failureTest s).opt.port = s.opt.port ∧
    (failureTest s).intake.stray = s.intake.stray ∧ (failureTest s).intake.accepted = s.intake.accepted ∧
    (failureTest s).accum.ready = s.accum.ready ∧ (failureTest s).trace.bg = s.trace.bg ∧
    (failureTest s).trace.summary = s.trace.summary ∧ (failureTest s).trace.capture = s.trace.capture ∧
    (failureTest s).verdict = s.verdict ∧ (failureTest s).findings = s.findings ∧
    (failureTest s).path.pass = s.path.pass ∧ (failureTest s).path.passCount = s.path.passCount ∧
    (failureTest s).path.waiting = s.path.waiting ∧ (failureTest s).path.guards = s.path.guards ∧
    (failureTest s).path.strayAccess = s.path.strayAccess ∧ (failureTest s).path.guardHit = s.path.guardHit ∧
    (failureTest s).mem = s.mem ∧ (failureTest s).pins = s.pins ∧ (failureTest s).pending = s.pending := by
  unfold failureTest
  split <;> simp

@[simp] theorem reject_frame (reason : RejectReason) (k : SlotIx) (f : Frame) (s : State) :
    (reject reason k f s).plan = s.plan ∧ (reject reason k f s).seq.state = s.seq.state ∧
    (reject reason k f s).seq.sweepNumber = s.seq.sweepNumber ∧ (reject reason k f s).seq.comp = s.seq.comp ∧
    (reject reason k f s).seq.outcomes = s.seq.outcomes ∧ (reject reason k f s).opt.warm = s.opt.warm ∧
    (reject reason k f s).opt.warmUpTimer = s.opt.warmUpTimer ∧
    (reject reason k f s).opt.warmHoldTimer = s.opt.warmHoldTimer ∧
    (reject reason k f s).opt.dutyTimer = s.opt.dutyTimer ∧ (reject reason k f s).opt.port = s.opt.port ∧
    (reject reason k f s).intake.stray = s.intake.stray ∧
    (reject reason k f s).intake.accepted = s.intake.accepted ∧ (reject reason k f s).accum.ready = s.accum.ready ∧
    (reject reason k f s).trace.bg = s.trace.bg ∧ (reject reason k f s).trace.summary = s.trace.summary ∧
    (reject reason k f s).trace.capture = s.trace.capture ∧ (reject reason k f s).verdict = s.verdict ∧
    (reject reason k f s).findings = s.findings ∧ (reject reason k f s).path.pass = s.path.pass ∧
    (reject reason k f s).path.passCount = s.path.passCount ∧ (reject reason k f s).path.waiting = s.path.waiting ∧
    (reject reason k f s).path.guards = s.path.guards ∧
    (reject reason k f s).path.strayAccess = s.path.strayAccess ∧
    (reject reason k f s).path.guardHit = s.path.guardHit ∧ (reject reason k f s).mem = s.mem ∧
    (reject reason k f s).pins = s.pins ∧ (reject reason k f s).pending = s.pending := by
  simp [reject]

@[simp] theorem lose_frame (k : SlotIx) (x : Shot) (s : State) :
    (lose k x s).plan = s.plan ∧ (lose k x s).seq.state = s.seq.state ∧
    (lose k x s).seq.sweepNumber = s.seq.sweepNumber ∧ (lose k x s).seq.comp = s.seq.comp ∧
    (lose k x s).seq.outcomes = s.seq.outcomes ∧ (lose k x s).opt.warm = s.opt.warm ∧
    (lose k x s).opt.warmUpTimer = s.opt.warmUpTimer ∧ (lose k x s).opt.warmHoldTimer = s.opt.warmHoldTimer ∧
    (lose k x s).opt.dutyTimer = s.opt.dutyTimer ∧ (lose k x s).opt.port = s.opt.port ∧
    (lose k x s).intake.stray = s.intake.stray ∧ (lose k x s).intake.accepted = s.intake.accepted ∧
    (lose k x s).accum.ready = s.accum.ready ∧ (lose k x s).trace.bg = s.trace.bg ∧
    (lose k x s).trace.summary = s.trace.summary ∧ (lose k x s).trace.capture = s.trace.capture ∧
    (lose k x s).verdict = s.verdict ∧ (lose k x s).findings = s.findings ∧ (lose k x s).path.pass = s.path.pass ∧
    (lose k x s).path.passCount = s.path.passCount ∧ (lose k x s).path.waiting = s.path.waiting ∧
    (lose k x s).path.guards = s.path.guards ∧ (lose k x s).path.strayAccess = s.path.strayAccess ∧
    (lose k x s).path.guardHit = s.path.guardHit ∧ (lose k x s).mem = s.mem ∧ (lose k x s).pins = s.pins ∧
    (lose k x s).pending = s.pending := by
  simp [lose]

@[simp] theorem rejectInProgress_frame (reason : RejectReason) (s : State) :
    (rejectInProgress reason s).plan = s.plan ∧ (rejectInProgress reason s).seq.state = s.seq.state ∧
    (rejectInProgress reason s).seq.sweepNumber = s.seq.sweepNumber ∧
    (rejectInProgress reason s).seq.comp = s.seq.comp ∧ (rejectInProgress reason s).seq.outcomes = s.seq.outcomes ∧
    (rejectInProgress reason s).opt.warm = s.opt.warm ∧
    (rejectInProgress reason s).opt.warmUpTimer = s.opt.warmUpTimer ∧
    (rejectInProgress reason s).opt.warmHoldTimer = s.opt.warmHoldTimer ∧
    (rejectInProgress reason s).opt.dutyTimer = s.opt.dutyTimer ∧
    (rejectInProgress reason s).opt.port = s.opt.port ∧ (rejectInProgress reason s).intake.stray = s.intake.stray ∧
    (rejectInProgress reason s).intake.accepted = s.intake.accepted ∧
    (rejectInProgress reason s).accum.ready = s.accum.ready ∧ (rejectInProgress reason s).trace.bg = s.trace.bg ∧
    (rejectInProgress reason s).trace.summary = s.trace.summary ∧
    (rejectInProgress reason s).trace.capture = s.trace.capture ∧ (rejectInProgress reason s).verdict = s.verdict ∧
    (rejectInProgress reason s).findings = s.findings ∧ (rejectInProgress reason s).path.pass = s.path.pass ∧
    (rejectInProgress reason s).path.passCount = s.path.passCount ∧
    (rejectInProgress reason s).path.waiting = s.path.waiting ∧
    (rejectInProgress reason s).path.guards = s.path.guards ∧
    (rejectInProgress reason s).path.strayAccess = s.path.strayAccess ∧
    (rejectInProgress reason s).path.guardHit = s.path.guardHit ∧ (rejectInProgress reason s).mem = s.mem ∧
    (rejectInProgress reason s).pins = s.pins ∧ (rejectInProgress reason s).pending = s.pending := by
  unfold rejectInProgress
  split <;> simp

@[simp] theorem frameRecord_frame (k : SlotIx) (x : Shot) (header : Word) (s : State) :
    (frameRecord k x header s).plan = s.plan ∧ (frameRecord k x header s).seq = s.seq ∧
    (frameRecord k x header s).opt = s.opt ∧ (frameRecord k x header s).intake.stray = s.intake.stray ∧
    (frameRecord k x header s).intake.accepted = s.intake.accepted ∧
    (frameRecord k x header s).intake.outstanding = s.intake.outstanding ∧
    (frameRecord k x header s).accum = s.accum ∧ (frameRecord k x header s).trace = s.trace ∧
    (frameRecord k x header s).verdict = s.verdict ∧ (frameRecord k x header s).findings = s.findings ∧
    (frameRecord k x header s).mirror = s.mirror ∧ (frameRecord k x header s).path = s.path ∧
    (frameRecord k x header s).mem = s.mem ∧ (frameRecord k x header s).pins = s.pins ∧
    (frameRecord k x header s).freeIndex = s.freeIndex ∧ (frameRecord k x header s).pending = s.pending := by
  simp [frameRecord]

@[simp] theorem staleHeader_frame (s : State) :
    (staleHeader s).plan = s.plan ∧ (staleHeader s).seq = s.seq ∧ (staleHeader s).opt = s.opt ∧
    (staleHeader s).intake.accepted = s.intake.accepted ∧
    (staleHeader s).intake.outstanding = s.intake.outstanding ∧ (staleHeader s).accum = s.accum ∧
    (staleHeader s).trace = s.trace ∧ (staleHeader s).verdict = s.verdict ∧ (staleHeader s).findings = s.findings ∧
    (staleHeader s).mirror = s.mirror ∧ (staleHeader s).path = s.path ∧ (staleHeader s).mem = s.mem ∧
    (staleHeader s).pins = s.pins ∧ (staleHeader s).freeIndex = s.freeIndex ∧
    (staleHeader s).pending = s.pending := by
  simp [staleHeader]

@[simp] theorem overtake_frame (k : SlotIx) (old : Shot) (young : Shot) (header : Word) (s : State) :
    (overtake k old young header s).plan = s.plan ∧ (overtake k old young header s).seq.state = s.seq.state ∧
    (overtake k old young header s).seq.sweepNumber = s.seq.sweepNumber ∧
    (overtake k old young header s).seq.comp = s.seq.comp ∧
    (overtake k old young header s).seq.outcomes = s.seq.outcomes ∧
    (overtake k old young header s).opt.warm = s.opt.warm ∧
    (overtake k old young header s).opt.warmUpTimer = s.opt.warmUpTimer ∧
    (overtake k old young header s).opt.warmHoldTimer = s.opt.warmHoldTimer ∧
    (overtake k old young header s).opt.dutyTimer = s.opt.dutyTimer ∧
    (overtake k old young header s).opt.port = s.opt.port ∧
    (overtake k old young header s).intake.stray = s.intake.stray ∧
    (overtake k old young header s).intake.accepted = s.intake.accepted ∧
    (overtake k old young header s).accum.ready = s.accum.ready ∧
    (overtake k old young header s).trace.bg = s.trace.bg ∧
    (overtake k old young header s).trace.summary = s.trace.summary ∧
    (overtake k old young header s).trace.capture = s.trace.capture ∧
    (overtake k old young header s).verdict = s.verdict ∧ (overtake k old young header s).findings = s.findings ∧
    (overtake k old young header s).path.pass = s.path.pass ∧
    (overtake k old young header s).path.passCount = s.path.passCount ∧
    (overtake k old young header s).path.waiting = s.path.waiting ∧
    (overtake k old young header s).path.guards = s.path.guards ∧
    (overtake k old young header s).path.strayAccess = s.path.strayAccess ∧
    (overtake k old young header s).path.guardHit = s.path.guardHit ∧ (overtake k old young header s).mem = s.mem ∧
    (overtake k old young header s).pins = s.pins ∧ (overtake k old young header s).pending = s.pending := by
  unfold overtake
  dsimp only
  split <;> simp

@[simp] theorem matchShot_frame (k : SlotIx) (header : Word) (s : State) :
    (matchShot k header s).plan = s.plan ∧ (matchShot k header s).seq.state = s.seq.state ∧
    (matchShot k header s).seq.sweepNumber = s.seq.sweepNumber ∧ (matchShot k header s).seq.comp = s.seq.comp ∧
    (matchShot k header s).seq.outcomes = s.seq.outcomes ∧ (matchShot k header s).opt.warm = s.opt.warm ∧
    (matchShot k header s).opt.warmUpTimer = s.opt.warmUpTimer ∧
    (matchShot k header s).opt.warmHoldTimer = s.opt.warmHoldTimer ∧
    (matchShot k header s).opt.dutyTimer = s.opt.dutyTimer ∧ (matchShot k header s).opt.port = s.opt.port ∧
    (matchShot k header s).intake.accepted = s.intake.accepted ∧
    (matchShot k header s).accum.ready = s.accum.ready ∧ (matchShot k header s).trace.bg = s.trace.bg ∧
    (matchShot k header s).trace.summary = s.trace.summary ∧
    (matchShot k header s).trace.capture = s.trace.capture ∧ (matchShot k header s).verdict = s.verdict ∧
    (matchShot k header s).findings = s.findings ∧ (matchShot k header s).path.pass = s.path.pass ∧
    (matchShot k header s).path.passCount = s.path.passCount ∧
    (matchShot k header s).path.waiting = s.path.waiting ∧ (matchShot k header s).path.guards = s.path.guards ∧
    (matchShot k header s).path.strayAccess = s.path.strayAccess ∧
    (matchShot k header s).path.guardHit = s.path.guardHit ∧ (matchShot k header s).mem = s.mem ∧
    (matchShot k header s).pins = s.pins ∧ (matchShot k header s).pending = s.pending := by
  unfold matchShot
  repeat' split
  all_goals simp

@[simp] theorem matchHeader_frame (header : Word) (s : State) :
    (matchHeader header s).plan = s.plan ∧ (matchHeader header s).seq.state = s.seq.state ∧
    (matchHeader header s).seq.sweepNumber = s.seq.sweepNumber ∧ (matchHeader header s).seq.comp = s.seq.comp ∧
    (matchHeader header s).seq.outcomes = s.seq.outcomes ∧ (matchHeader header s).opt.warm = s.opt.warm ∧
    (matchHeader header s).opt.warmUpTimer = s.opt.warmUpTimer ∧
    (matchHeader header s).opt.warmHoldTimer = s.opt.warmHoldTimer ∧
    (matchHeader header s).opt.dutyTimer = s.opt.dutyTimer ∧ (matchHeader header s).opt.port = s.opt.port ∧
    (matchHeader header s).intake.accepted = s.intake.accepted ∧
    (matchHeader header s).accum.ready = s.accum.ready ∧ (matchHeader header s).trace.bg = s.trace.bg ∧
    (matchHeader header s).trace.summary = s.trace.summary ∧
    (matchHeader header s).trace.capture = s.trace.capture ∧ (matchHeader header s).verdict = s.verdict ∧
    (matchHeader header s).findings = s.findings ∧ (matchHeader header s).path.pass = s.path.pass ∧
    (matchHeader header s).path.passCount = s.path.passCount ∧
    (matchHeader header s).path.waiting = s.path.waiting ∧ (matchHeader header s).path.guards = s.path.guards ∧
    (matchHeader header s).path.strayAccess = s.path.strayAccess ∧
    (matchHeader header s).path.guardHit = s.path.guardHit ∧ (matchHeader header s).mem = s.mem ∧
    (matchHeader header s).pins = s.pins ∧ (matchHeader header s).pending = s.pending := by
  unfold matchHeader
  repeat' split
  all_goals simp

@[simp] theorem frameHeader_frame (header : Word) (s : State) :
    (frameHeader header s).plan = s.plan ∧ (frameHeader header s).seq.state = s.seq.state ∧
    (frameHeader header s).seq.sweepNumber = s.seq.sweepNumber ∧ (frameHeader header s).seq.comp = s.seq.comp ∧
    (frameHeader header s).seq.outcomes = s.seq.outcomes ∧ (frameHeader header s).opt.warm = s.opt.warm ∧
    (frameHeader header s).opt.warmUpTimer = s.opt.warmUpTimer ∧
    (frameHeader header s).opt.warmHoldTimer = s.opt.warmHoldTimer ∧
    (frameHeader header s).opt.dutyTimer = s.opt.dutyTimer ∧ (frameHeader header s).opt.port = s.opt.port ∧
    (frameHeader header s).intake.accepted = s.intake.accepted ∧
    (frameHeader header s).accum.ready = s.accum.ready ∧ (frameHeader header s).trace.bg = s.trace.bg ∧
    (frameHeader header s).trace.summary = s.trace.summary ∧
    (frameHeader header s).trace.capture = s.trace.capture ∧ (frameHeader header s).verdict = s.verdict ∧
    (frameHeader header s).findings = s.findings ∧ (frameHeader header s).path.pass = s.path.pass ∧
    (frameHeader header s).path.passCount = s.path.passCount ∧
    (frameHeader header s).path.waiting = s.path.waiting ∧ (frameHeader header s).path.guards = s.path.guards ∧
    (frameHeader header s).path.strayAccess = s.path.strayAccess ∧
    (frameHeader header s).path.guardHit = s.path.guardHit ∧ (frameHeader header s).mem = s.mem ∧
    (frameHeader header s).pins = s.pins ∧ (frameHeader header s).pending = s.pending := by
  unfold frameHeader
  dsimp only
  repeat' split
  all_goals simp

@[simp] theorem headerWritten_frame (header : Word) (s : State) :
    (headerWritten header s).plan = s.plan ∧ (headerWritten header s).seq.state = s.seq.state ∧
    (headerWritten header s).seq.sweepNumber = s.seq.sweepNumber ∧ (headerWritten header s).seq.comp = s.seq.comp ∧
    (headerWritten header s).seq.outcomes = s.seq.outcomes ∧ (headerWritten header s).opt.warm = s.opt.warm ∧
    (headerWritten header s).opt.warmUpTimer = s.opt.warmUpTimer ∧
    (headerWritten header s).opt.warmHoldTimer = s.opt.warmHoldTimer ∧
    (headerWritten header s).opt.dutyTimer = s.opt.dutyTimer ∧ (headerWritten header s).opt.port = s.opt.port ∧
    (headerWritten header s).intake.accepted = s.intake.accepted ∧
    (headerWritten header s).accum.ready = s.accum.ready ∧ (headerWritten header s).trace.bg = s.trace.bg ∧
    (headerWritten header s).trace.summary = s.trace.summary ∧
    (headerWritten header s).trace.capture = s.trace.capture ∧ (headerWritten header s).verdict = s.verdict ∧
    (headerWritten header s).findings = s.findings ∧ (headerWritten header s).path.pass = s.path.pass ∧
    (headerWritten header s).path.passCount = s.path.passCount ∧
    (headerWritten header s).path.waiting = s.path.waiting ∧ (headerWritten header s).path.guards = s.path.guards ∧
    (headerWritten header s).path.strayAccess = s.path.strayAccess ∧
    (headerWritten header s).path.guardHit = s.path.guardHit ∧ (headerWritten header s).mem = s.mem ∧
    (headerWritten header s).pins = s.pins ∧ (headerWritten header s).pending = s.pending := by
  unfold headerWritten
  dsimp only
  split <;> simp

@[simp] theorem takeSample_frame (f : Frame) (w : Word) (s : State) :
    (takeSample f w s).plan = s.plan ∧ (takeSample f w s).seq = s.seq ∧ (takeSample f w s).opt = s.opt ∧
    (takeSample f w s).intake.stray = s.intake.stray ∧ (takeSample f w s).intake.accepted = s.intake.accepted ∧
    (takeSample f w s).intake.outstanding = s.intake.outstanding ∧ (takeSample f w s).accum = s.accum ∧
    (takeSample f w s).trace = s.trace ∧ (takeSample f w s).verdict = s.verdict ∧
    (takeSample f w s).findings = s.findings ∧ (takeSample f w s).mirror = s.mirror ∧
    (takeSample f w s).path = s.path ∧ (takeSample f w s).mem = s.mem ∧ (takeSample f w s).pins = s.pins ∧
    (takeSample f w s).freeIndex = s.freeIndex ∧ (takeSample f w s).pending = s.pending := by
  simp [takeSample]

@[simp] theorem raiseClipped_frame (k : SlotIx) (s : State) :
    (raiseClipped k s).plan = s.plan ∧ (raiseClipped k s).seq = s.seq ∧ (raiseClipped k s).opt = s.opt ∧
    (raiseClipped k s).intake = s.intake ∧ (raiseClipped k s).accum = s.accum ∧
    (raiseClipped k s).trace.bg = s.trace.bg ∧ (raiseClipped k s).trace.view = s.trace.view ∧
    (raiseClipped k s).trace.capture = s.trace.capture ∧ (raiseClipped k s).trace.squeezed = s.trace.squeezed ∧
    (raiseClipped k s).verdict = s.verdict ∧ (raiseClipped k s).findings = s.findings ∧
    (raiseClipped k s).mirror = s.mirror ∧ (raiseClipped k s).path = s.path ∧ (raiseClipped k s).mem = s.mem ∧
    (raiseClipped k s).pins = s.pins ∧ (raiseClipped k s).freeIndex = s.freeIndex ∧
    (raiseClipped k s).pending = s.pending := by
  simp [raiseClipped]

@[simp] theorem lastAcceptedTest_frame (k : SlotIx) (s : State) :
    (lastAcceptedTest k s).plan = s.plan ∧ (lastAcceptedTest k s).seq = s.seq ∧
    (lastAcceptedTest k s).opt.warm = s.opt.warm ∧ (lastAcceptedTest k s).opt.warmUpTimer = s.opt.warmUpTimer ∧
    (lastAcceptedTest k s).opt.warmHoldTimer = s.opt.warmHoldTimer ∧
    (lastAcceptedTest k s).opt.dutyTimer = s.opt.dutyTimer ∧
    (lastAcceptedTest k s).opt.dutyCount = s.opt.dutyCount ∧ (lastAcceptedTest k s).opt.port = s.opt.port ∧
    (lastAcceptedTest k s).opt.strobes = s.opt.strobes ∧ (lastAcceptedTest k s).intake = s.intake ∧
    (lastAcceptedTest k s).accum = s.accum ∧ (lastAcceptedTest k s).trace = s.trace ∧
    (lastAcceptedTest k s).verdict = s.verdict ∧ (lastAcceptedTest k s).findings = s.findings ∧
    (lastAcceptedTest k s).mirror = s.mirror ∧ (lastAcceptedTest k s).path = s.path ∧
    (lastAcceptedTest k s).mem = s.mem ∧ (lastAcceptedTest k s).pins = s.pins ∧
    (lastAcceptedTest k s).freeIndex = s.freeIndex ∧ (lastAcceptedTest k s).pending = s.pending := by
  unfold lastAcceptedTest
  split <;> simp

@[simp] theorem acceptRecord_frame (k : SlotIx) (f : Frame) (s : State) :
    (acceptRecord k f s).plan = s.plan ∧ (acceptRecord k f s).seq.state = s.seq.state ∧
    (acceptRecord k f s).seq.sweepNumber = s.seq.sweepNumber ∧ (acceptRecord k f s).seq.comp = s.seq.comp ∧
    (acceptRecord k f s).seq.outcomes = s.seq.outcomes ∧ (acceptRecord k f s).opt.warm = s.opt.warm ∧
    (acceptRecord k f s).opt.warmUpTimer = s.opt.warmUpTimer ∧
    (acceptRecord k f s).opt.warmHoldTimer = s.opt.warmHoldTimer ∧
    (acceptRecord k f s).opt.dutyTimer = s.opt.dutyTimer ∧ (acceptRecord k f s).opt.port = s.opt.port ∧
    (acceptRecord k f s).intake.stray = s.intake.stray ∧ (acceptRecord k f s).intake.accepted = s.intake.accepted ∧
    (acceptRecord k f s).accum.ready = s.accum.ready ∧ (acceptRecord k f s).trace.bg = s.trace.bg ∧
    (acceptRecord k f s).trace.view = s.trace.view ∧ (acceptRecord k f s).trace.capture = s.trace.capture ∧
    (acceptRecord k f s).trace.squeezed = s.trace.squeezed ∧ (acceptRecord k f s).verdict = s.verdict ∧
    (acceptRecord k f s).findings = s.findings ∧ (acceptRecord k f s).path = s.path ∧
    (acceptRecord k f s).mem = s.mem ∧ (acceptRecord k f s).pins = s.pins ∧
    (acceptRecord k f s).freeIndex = s.freeIndex ∧ (acceptRecord k f s).pending = s.pending := by
  unfold acceptRecord
  dsimp only
  split <;> simp

@[simp] theorem judgeRecord_frame (k : SlotIx) (f : Frame) (check : Word) (s : State) :
    (judgeRecord k f check s).plan = s.plan ∧ (judgeRecord k f check s).seq.state = s.seq.state ∧
    (judgeRecord k f check s).seq.sweepNumber = s.seq.sweepNumber ∧
    (judgeRecord k f check s).seq.comp = s.seq.comp ∧ (judgeRecord k f check s).seq.outcomes = s.seq.outcomes ∧
    (judgeRecord k f check s).opt.warm = s.opt.warm ∧
    (judgeRecord k f check s).opt.warmUpTimer = s.opt.warmUpTimer ∧
    (judgeRecord k f check s).opt.warmHoldTimer = s.opt.warmHoldTimer ∧
    (judgeRecord k f check s).opt.dutyTimer = s.opt.dutyTimer ∧ (judgeRecord k f check s).opt.port = s.opt.port ∧
    (judgeRecord k f check s).intake.stray = s.intake.stray ∧
    (judgeRecord k f check s).intake.accepted = s.intake.accepted ∧
    (judgeRecord k f check s).accum.ready = s.accum.ready ∧ (judgeRecord k f check s).trace.bg = s.trace.bg ∧
    (judgeRecord k f check s).trace.capture = s.trace.capture ∧ (judgeRecord k f check s).verdict = s.verdict ∧
    (judgeRecord k f check s).findings = s.findings ∧ (judgeRecord k f check s).path.pass = s.path.pass ∧
    (judgeRecord k f check s).path.passCount = s.path.passCount ∧
    (judgeRecord k f check s).path.waiting = s.path.waiting ∧
    (judgeRecord k f check s).path.guards = s.path.guards ∧
    (judgeRecord k f check s).path.strayAccess = s.path.strayAccess ∧
    (judgeRecord k f check s).path.guardHit = s.path.guardHit ∧ (judgeRecord k f check s).mem = s.mem ∧
    (judgeRecord k f check s).pins = s.pins ∧ (judgeRecord k f check s).pending = s.pending := by
  unfold judgeRecord
  repeat' split
  all_goals simp

@[simp] theorem wordWritten_frame (offset : Nat) (w : Word) (s : State) :
    (wordWritten offset w s).plan = s.plan ∧ (wordWritten offset w s).seq.state = s.seq.state ∧
    (wordWritten offset w s).seq.sweepNumber = s.seq.sweepNumber ∧ (wordWritten offset w s).seq.comp = s.seq.comp ∧
    (wordWritten offset w s).seq.outcomes = s.seq.outcomes ∧ (wordWritten offset w s).opt.warm = s.opt.warm ∧
    (wordWritten offset w s).opt.warmUpTimer = s.opt.warmUpTimer ∧
    (wordWritten offset w s).opt.warmHoldTimer = s.opt.warmHoldTimer ∧
    (wordWritten offset w s).opt.dutyTimer = s.opt.dutyTimer ∧ (wordWritten offset w s).opt.port = s.opt.port ∧
    (wordWritten offset w s).intake.stray = s.intake.stray ∧
    (wordWritten offset w s).intake.accepted = s.intake.accepted ∧
    (wordWritten offset w s).accum.ready = s.accum.ready ∧ (wordWritten offset w s).trace.bg = s.trace.bg ∧
    (wordWritten offset w s).trace.capture = s.trace.capture ∧ (wordWritten offset w s).verdict = s.verdict ∧
    (wordWritten offset w s).findings = s.findings ∧ (wordWritten offset w s).path.pass = s.path.pass ∧
    (wordWritten offset w s).path.passCount = s.path.passCount ∧
    (wordWritten offset w s).path.waiting = s.path.waiting ∧ (wordWritten offset w s).path.guards = s.path.guards ∧
    (wordWritten offset w s).path.strayAccess = s.path.strayAccess ∧
    (wordWritten offset w s).path.guardHit = s.path.guardHit ∧ (wordWritten offset w s).mem = s.mem ∧
    (wordWritten offset w s).pins = s.pins ∧ (wordWritten offset w s).pending = s.pending := by
  unfold wordWritten
  repeat' split
  all_goals simp

@[simp] theorem partialWritten_frame (s : State) :
    (partialWritten s).plan = s.plan ∧ (partialWritten s).seq.state = s.seq.state ∧
    (partialWritten s).seq.sweepNumber = s.seq.sweepNumber ∧ (partialWritten s).seq.comp = s.seq.comp ∧
    (partialWritten s).seq.outcomes = s.seq.outcomes ∧ (partialWritten s).opt.warm = s.opt.warm ∧
    (partialWritten s).opt.warmUpTimer = s.opt.warmUpTimer ∧
    (partialWritten s).opt.warmHoldTimer = s.opt.warmHoldTimer ∧
    (partialWritten s).opt.dutyTimer = s.opt.dutyTimer ∧ (partialWritten s).opt.port = s.opt.port ∧
    (partialWritten s).intake.stray = s.intake.stray ∧ (partialWritten s).intake.accepted = s.intake.accepted ∧
    (partialWritten s).accum.ready = s.accum.ready ∧ (partialWritten s).trace.bg = s.trace.bg ∧
    (partialWritten s).trace.summary = s.trace.summary ∧ (partialWritten s).trace.capture = s.trace.capture ∧
    (partialWritten s).verdict = s.verdict ∧ (partialWritten s).findings = s.findings ∧
    (partialWritten s).path.pass = s.path.pass ∧ (partialWritten s).path.passCount = s.path.passCount ∧
    (partialWritten s).path.waiting = s.path.waiting ∧ (partialWritten s).path.guards = s.path.guards ∧
    (partialWritten s).path.strayAccess = s.path.strayAccess ∧ (partialWritten s).path.guardHit = s.path.guardHit ∧
    (partialWritten s).mem = s.mem ∧ (partialWritten s).pins = s.pins ∧ (partialWritten s).pending = s.pending := by
  unfold partialWritten
  split <;> simp

@[simp] theorem shotWindowWrite_frame (offset : Nat) (be : Enables) (w : Word) (s : State) :
    (shotWindowWrite offset be w s).plan = s.plan ∧ (shotWindowWrite offset be w s).seq.state = s.seq.state ∧
    (shotWindowWrite offset be w s).seq.sweepNumber = s.seq.sweepNumber ∧
    (shotWindowWrite offset be w s).seq.comp = s.seq.comp ∧
    (shotWindowWrite offset be w s).seq.outcomes = s.seq.outcomes ∧
    (shotWindowWrite offset be w s).opt.warm = s.opt.warm ∧
    (shotWindowWrite offset be w s).opt.warmUpTimer = s.opt.warmUpTimer ∧
    (shotWindowWrite offset be w s).opt.warmHoldTimer = s.opt.warmHoldTimer ∧
    (shotWindowWrite offset be w s).opt.dutyTimer = s.opt.dutyTimer ∧
    (shotWindowWrite offset be w s).opt.port = s.opt.port ∧
    (shotWindowWrite offset be w s).intake.accepted = s.intake.accepted ∧
    (shotWindowWrite offset be w s).accum.ready = s.accum.ready ∧
    (shotWindowWrite offset be w s).trace.bg = s.trace.bg ∧
    (shotWindowWrite offset be w s).trace.capture = s.trace.capture ∧
    (shotWindowWrite offset be w s).verdict = s.verdict ∧ (shotWindowWrite offset be w s).findings = s.findings ∧
    (shotWindowWrite offset be w s).path.pass = s.path.pass ∧
    (shotWindowWrite offset be w s).path.passCount = s.path.passCount ∧
    (shotWindowWrite offset be w s).path.waiting = s.path.waiting ∧
    (shotWindowWrite offset be w s).path.guards = s.path.guards ∧
    (shotWindowWrite offset be w s).path.strayAccess = s.path.strayAccess ∧
    (shotWindowWrite offset be w s).path.guardHit = s.path.guardHit ∧ (shotWindowWrite offset be w s).mem = s.mem ∧
    (shotWindowWrite offset be w s).pins = s.pins ∧ (shotWindowWrite offset be w s).pending = s.pending := by
  unfold shotWindowWrite
  repeat' split
  all_goals simp

@[simp] theorem deadlineExpired_frame (sequence : BitVec 16) (s : State) :
    (deadlineExpired sequence s).plan = s.plan ∧ (deadlineExpired sequence s).seq.state = s.seq.state ∧
    (deadlineExpired sequence s).seq.sweepNumber = s.seq.sweepNumber ∧
    (deadlineExpired sequence s).seq.comp = s.seq.comp ∧
    (deadlineExpired sequence s).seq.outcomes = s.seq.outcomes ∧
    (deadlineExpired sequence s).opt.warm = s.opt.warm ∧
    (deadlineExpired sequence s).opt.warmUpTimer = s.opt.warmUpTimer ∧
    (deadlineExpired sequence s).opt.warmHoldTimer = s.opt.warmHoldTimer ∧
    (deadlineExpired sequence s).opt.dutyTimer = s.opt.dutyTimer ∧
    (deadlineExpired sequence s).opt.port = s.opt.port ∧
    (deadlineExpired sequence s).intake.stray = s.intake.stray ∧
    (deadlineExpired sequence s).intake.accepted = s.intake.accepted ∧
    (deadlineExpired sequence s).accum.ready = s.accum.ready ∧ (deadlineExpired sequence s).trace.bg = s.trace.bg ∧
    (deadlineExpired sequence s).trace.summary = s.trace.summary ∧
    (deadlineExpired sequence s).trace.capture = s.trace.capture ∧
    (deadlineExpired sequence s).verdict = s.verdict ∧ (deadlineExpired sequence s).findings = s.findings ∧
    (deadlineExpired sequence s).path.pass = s.path.pass ∧
    (deadlineExpired sequence s).path.passCount = s.path.passCount ∧
    (deadlineExpired sequence s).path.waiting = s.path.waiting ∧
    (deadlineExpired sequence s).path.guards = s.path.guards ∧
    (deadlineExpired sequence s).path.strayAccess = s.path.strayAccess ∧
    (deadlineExpired sequence s).path.guardHit = s.path.guardHit ∧ (deadlineExpired sequence s).mem = s.mem ∧
    (deadlineExpired sequence s).pins = s.pins ∧ (deadlineExpired sequence s).pending = s.pending := by
  unfold deadlineExpired
  split <;> simp

/-! ### Machine/Sequencer.lean -/

@[simp] theorem setPhase_frame (p : AcqPhase) (s : State) :
    (setPhase p s).plan = s.plan ∧ (setPhase p s).seq.state = s.seq.state ∧
    (setPhase p s).seq.sweepNumber = s.seq.sweepNumber ∧ (setPhase p s).seq.comp = s.seq.comp ∧
    (setPhase p s).seq.outcomes = s.seq.outcomes ∧ (setPhase p s).opt = s.opt ∧ (setPhase p s).intake = s.intake ∧
    (setPhase p s).accum = s.accum ∧ (setPhase p s).trace = s.trace ∧ (setPhase p s).verdict = s.verdict ∧
    (setPhase p s).findings = s.findings ∧ (setPhase p s).path = s.path ∧ (setPhase p s).mem = s.mem ∧
    (setPhase p s).pins = s.pins ∧ (setPhase p s).freeIndex = s.freeIndex ∧ (setPhase p s).pending = s.pending := by
  unfold setPhase
  split <;> simp

@[simp] theorem guardCheck_frame (s : State) :
    (guardCheck s).plan = s.plan ∧ (guardCheck s).seq.state = s.seq.state ∧
    (guardCheck s).seq.sweepNumber = s.seq.sweepNumber ∧ (guardCheck s).seq.comp = s.seq.comp ∧
    (guardCheck s).seq.outcomes = s.seq.outcomes ∧ (guardCheck s).opt.warm = s.opt.warm ∧
    (guardCheck s).opt.warmUpTimer = s.opt.warmUpTimer ∧ (guardCheck s).opt.warmHoldTimer = s.opt.warmHoldTimer ∧
    (guardCheck s).opt.dutyTimer = s.opt.dutyTimer ∧ (guardCheck s).opt.port = s.opt.port ∧
    (guardCheck s).intake.stray = s.intake.stray ∧ (guardCheck s).intake.accepted = s.intake.accepted ∧
    (guardCheck s).accum = s.accum ∧ (guardCheck s).trace = s.trace ∧ (guardCheck s).verdict = s.verdict ∧
    (guardCheck s).findings = s.findings ∧ (guardCheck s).path = s.path ∧ (guardCheck s).mem = s.mem ∧
    (guardCheck s).pins = s.pins ∧ (guardCheck s).freeIndex = s.freeIndex ∧ (guardCheck s).pending = s.pending := by
  unfold guardCheck
  split <;> simp

@[simp] theorem settlingTest_frame (s : State) :
    (settlingTest s).plan = s.plan ∧ (settlingTest s).seq.state = s.seq.state ∧
    (settlingTest s).seq.sweepNumber = s.seq.sweepNumber ∧ (settlingTest s).seq.comp = s.seq.comp ∧
    (settlingTest s).seq.outcomes = s.seq.outcomes ∧ (settlingTest s).opt.warm = s.opt.warm ∧
    (settlingTest s).opt.warmUpTimer = s.opt.warmUpTimer ∧
    (settlingTest s).opt.warmHoldTimer = s.opt.warmHoldTimer ∧ (settlingTest s).opt.dutyTimer = s.opt.dutyTimer ∧
    (settlingTest s).opt.port = s.opt.port ∧ (settlingTest s).intake.stray = s.intake.stray ∧
    (settlingTest s).intake.accepted = s.intake.accepted ∧ (settlingTest s).accum = s.accum ∧
    (settlingTest s).trace = s.trace ∧ (settlingTest s).verdict = s.verdict ∧
    (settlingTest s).findings = s.findings ∧ (settlingTest s).path = s.path ∧ (settlingTest s).mem = s.mem ∧
    (settlingTest s).pins = s.pins ∧ (settlingTest s).freeIndex = s.freeIndex ∧
    (settlingTest s).pending = s.pending := by
  unfold settlingTest
  repeat' split
  all_goals simp

@[simp] theorem setOutcome_frame (k : SlotIx) (o : SlotOutcome) (s : State) :
    (setOutcome k o s).plan = s.plan ∧ (setOutcome k o s).seq.state = s.seq.state ∧
    (setOutcome k o s).seq.sweepNumber = s.seq.sweepNumber ∧ (setOutcome k o s).seq.acq = s.seq.acq ∧
    (setOutcome k o s).seq.comp = s.seq.comp ∧ (setOutcome k o s).opt = s.opt ∧
    (setOutcome k o s).intake = s.intake ∧ (setOutcome k o s).accum = s.accum ∧ (setOutcome k o s).trace = s.trace ∧
    (setOutcome k o s).verdict = s.verdict ∧ (setOutcome k o s).findings = s.findings ∧
    (setOutcome k o s).mirror = s.mirror ∧ (setOutcome k o s).path = s.path ∧ (setOutcome k o s).mem = s.mem ∧
    (setOutcome k o s).pins = s.pins ∧ (setOutcome k o s).freeIndex = s.freeIndex ∧
    (setOutcome k o s).pending = s.pending := by
  simp [setOutcome]

@[simp] theorem enterLane_frame (k : SlotIx) (s : State) :
    (enterLane k s).plan = s.plan ∧ (enterLane k s).seq.state = s.seq.state ∧
    (enterLane k s).seq.sweepNumber = s.seq.sweepNumber ∧ (enterLane k s).seq.comp = s.seq.comp ∧
    (enterLane k s).opt.dutyTimer = s.opt.dutyTimer ∧ (enterLane k s).intake.stray = s.intake.stray ∧
    (enterLane k s).accum.lock = s.accum.lock ∧ (enterLane k s).accum.queue = s.accum.queue ∧
    (enterLane k s).accum.add = s.accum.add ∧ (enterLane k s).trace.bg = s.trace.bg ∧
    (enterLane k s).trace.view = s.trace.view ∧ (enterLane k s).trace.summary = s.trace.summary ∧
    (enterLane k s).trace.capture = s.trace.capture ∧ (enterLane k s).trace.squeezed = s.trace.squeezed ∧
    (enterLane k s).findings.post = s.findings.post ∧ (enterLane k s).findings.taken = s.findings.taken ∧
    (enterLane k s).findings.sweepEndNotice = s.findings.sweepEndNotice ∧ (enterLane k s).path.pass = s.path.pass ∧
    (enterLane k s).path.passCount = s.path.passCount ∧ (enterLane k s).path.waiting = s.path.waiting ∧
    (enterLane k s).path.strayAccess = s.path.strayAccess ∧ (enterLane k s).path.guardHit = s.path.guardHit ∧
    (enterLane k s).path.readData = s.path.readData ∧ (enterLane k s).mem = s.mem ∧ (enterLane k s).pins = s.pins ∧
    (enterLane k s).freeIndex = s.freeIndex ∧ (enterLane k s).pending = s.pending := by
  simp [enterLane]

@[simp] theorem offerSlot_frame (k : SlotIx) (s : State) :
    (offerSlot k s).plan.lastCommand = s.plan.lastCommand ∧ (offerSlot k s).plan.pendingCopy = s.plan.pendingCopy ∧
    (offerSlot k s).plan.ringFault = s.plan.ringFault ∧ (offerSlot k s).seq.state = s.seq.state ∧
    (offerSlot k s).seq.sweepNumber = s.seq.sweepNumber ∧ (offerSlot k s).seq.comp = s.seq.comp ∧
    (offerSlot k s).opt.dutyTimer = s.opt.dutyTimer ∧ (offerSlot k s).intake.stray = s.intake.stray ∧
    (offerSlot k s).accum.lock = s.accum.lock ∧ (offerSlot k s).accum.queue = s.accum.queue ∧
    (offerSlot k s).accum.add = s.accum.add ∧ (offerSlot k s).trace.bg = s.trace.bg ∧
    (offerSlot k s).trace.view = s.trace.view ∧ (offerSlot k s).trace.summary = s.trace.summary ∧
    (offerSlot k s).trace.capture = s.trace.capture ∧ (offerSlot k s).trace.squeezed = s.trace.squeezed ∧
    (offerSlot k s).findings.post = s.findings.post ∧ (offerSlot k s).findings.taken = s.findings.taken ∧
    (offerSlot k s).findings.sweepEndNotice = s.findings.sweepEndNotice ∧ (offerSlot k s).path.pass = s.path.pass ∧
    (offerSlot k s).path.passCount = s.path.passCount ∧ (offerSlot k s).path.waiting = s.path.waiting ∧
    (offerSlot k s).path.strayAccess = s.path.strayAccess ∧ (offerSlot k s).path.guardHit = s.path.guardHit ∧
    (offerSlot k s).path.readData = s.path.readData ∧ (offerSlot k s).mem = s.mem ∧ (offerSlot k s).pins = s.pins ∧
    (offerSlot k s).freeIndex = s.freeIndex ∧ (offerSlot k s).pending = s.pending := by
  unfold offerSlot
  dsimp only
  repeat' split
  all_goals simp

@[simp] theorem offerLane_frame (s : State) :
    (offerLane s).plan.lastCommand = s.plan.lastCommand ∧ (offerLane s).plan.pendingCopy = s.plan.pendingCopy ∧
    (offerLane s).plan.ringFault = s.plan.ringFault ∧ (offerLane s).seq.state = s.seq.state ∧
    (offerLane s).seq.sweepNumber = s.seq.sweepNumber ∧ (offerLane s).seq.comp = s.seq.comp ∧
    (offerLane s).opt.dutyTimer = s.opt.dutyTimer ∧ (offerLane s).intake.stray = s.intake.stray ∧
    (offerLane s).accum.lock = s.accum.lock ∧ (offerLane s).accum.queue = s.accum.queue ∧
    (offerLane s).accum.add = s.accum.add ∧ (offerLane s).trace.bg = s.trace.bg ∧
    (offerLane s).trace.view = s.trace.view ∧ (offerLane s).trace.summary = s.trace.summary ∧
    (offerLane s).trace.capture = s.trace.capture ∧ (offerLane s).trace.squeezed = s.trace.squeezed ∧
    (offerLane s).findings.post = s.findings.post ∧ (offerLane s).findings.taken = s.findings.taken ∧
    (offerLane s).findings.sweepEndNotice = s.findings.sweepEndNotice ∧ (offerLane s).path.pass = s.path.pass ∧
    (offerLane s).path.passCount = s.path.passCount ∧ (offerLane s).path.waiting = s.path.waiting ∧
    (offerLane s).path.strayAccess = s.path.strayAccess ∧ (offerLane s).path.guardHit = s.path.guardHit ∧
    (offerLane s).path.readData = s.path.readData ∧ (offerLane s).mem = s.mem ∧ (offerLane s).pins = s.pins ∧
    (offerLane s).freeIndex = s.freeIndex ∧ (offerLane s).pending = s.pending := by
  unfold offerLane
  split <;> simp

@[simp] theorem enterPosting_frame (k : SlotIx) (r : Result) (s : State) :
    (enterPosting k r s).plan = s.plan ∧ (enterPosting k r s).seq.state = s.seq.state ∧
    (enterPosting k r s).seq.sweepNumber = s.seq.sweepNumber ∧ (enterPosting k r s).seq.acq = s.seq.acq ∧
    (enterPosting k r s).seq.outcomes = s.seq.outcomes ∧ (enterPosting k r s).opt = s.opt ∧
    (enterPosting k r s).intake = s.intake ∧ (enterPosting k r s).accum = s.accum ∧
    (enterPosting k r s).trace = s.trace ∧ (enterPosting k r s).verdict = s.verdict ∧
    (enterPosting k r s).findings = s.findings ∧ (enterPosting k r s).mirror = s.mirror ∧
    (enterPosting k r s).path = s.path ∧ (enterPosting k r s).mem = s.mem ∧ (enterPosting k r s).pins = s.pins ∧
    (enterPosting k r s).freeIndex = s.freeIndex ∧ (enterPosting k r s).pending = s.pending := by
  simp [enterPosting]

@[simp] theorem enterComparison_frame (k : SlotIx) (held : Held) (s : State) :
    (enterComparison k held s).plan.lastCommand = s.plan.lastCommand ∧
    (enterComparison k held s).plan.pendingCopy = s.plan.pendingCopy ∧
    (enterComparison k held s).seq.state = s.seq.state ∧
    (enterComparison k held s).seq.sweepNumber = s.seq.sweepNumber ∧
    (enterComparison k held s).seq.acq = s.seq.acq ∧ (enterComparison k held s).seq.outcomes = s.seq.outcomes ∧
    (enterComparison k held s).opt = s.opt ∧ (enterComparison k held s).intake = s.intake ∧
    (enterComparison k held s).accum.lock = s.accum.lock ∧ (enterComparison k held s).accum.queue = s.accum.queue ∧
    (enterComparison k held s).accum.add = s.accum.add ∧ (enterComparison k held s).trace.view = s.trace.view ∧
    (enterComparison k held s).trace.squeezed = s.trace.squeezed ∧
    (enterComparison k held s).findings.post = s.findings.post ∧
    (enterComparison k held s).findings.taken = s.findings.taken ∧
    (enterComparison k held s).findings.sweepEndNotice = s.findings.sweepEndNotice ∧
    (enterComparison k held s).path.pass = s.path.pass ∧
    (enterComparison k held s).path.passCount = s.path.passCount ∧
    (enterComparison k held s).path.waiting = s.path.waiting ∧
    (enterComparison k held s).path.strayAccess = s.path.strayAccess ∧
    (enterComparison k held s).path.guardHit = s.path.guardHit ∧
    (enterComparison k held s).path.readData = s.path.readData ∧ (enterComparison k held s).mem = s.mem ∧
    (enterComparison k held s).pins = s.pins ∧ (enterComparison k held s).freeIndex = s.freeIndex ∧
    (enterComparison k held s).pending = s.pending := by
  unfold enterComparison
  repeat' split
  all_goals simp

@[simp] theorem moveToComparison_frame (k : SlotIx) (held : Held) (s : State) :
    (moveToComparison k held s).plan.lastCommand = s.plan.lastCommand ∧
    (moveToComparison k held s).plan.pendingCopy = s.plan.pendingCopy ∧
    (moveToComparison k held s).seq.state = s.seq.state ∧
    (moveToComparison k held s).seq.sweepNumber = s.seq.sweepNumber ∧
    (moveToComparison k held s).seq.outcomes = s.seq.outcomes ∧
    (moveToComparison k held s).opt.dutyTimer = s.opt.dutyTimer ∧
    (moveToComparison k held s).opt.dutyCount = s.opt.dutyCount ∧
    (moveToComparison k held s).opt.port = s.opt.port ∧ (moveToComparison k held s).opt.strobes = s.opt.strobes ∧
    (moveToComparison k held s).intake = s.intake ∧ (moveToComparison k held s).accum.lock = s.accum.lock ∧
    (moveToComparison k held s).accum.queue = s.accum.queue ∧ (moveToComparison k held s).accum.add = s.accum.add ∧
    (moveToComparison k held s).trace.view = s.trace.view ∧
    (moveToComparison k held s).trace.squeezed = s.trace.squeezed ∧
    (moveToComparison k held s).findings.post = s.findings.post ∧
    (moveToComparison k held s).findings.taken = s.findings.taken ∧
    (moveToComparison k held s).findings.sweepEndNotice = s.findings.sweepEndNotice ∧
    (moveToComparison k held s).path.pass = s.path.pass ∧
    (moveToComparison k held s).path.passCount = s.path.passCount ∧
    (moveToComparison k held s).path.waiting = s.path.waiting ∧
    (moveToComparison k held s).path.strayAccess = s.path.strayAccess ∧
    (moveToComparison k held s).path.guardHit = s.path.guardHit ∧
    (moveToComparison k held s).path.readData = s.path.readData ∧ (moveToComparison k held s).mem = s.mem ∧
    (moveToComparison k held s).pins = s.pins ∧ (moveToComparison k held s).freeIndex = s.freeIndex ∧
    (moveToComparison k held s).pending = s.pending := by
  simp [moveToComparison]

@[simp] theorem laneMove_frame (s : State) :
    (laneMove s).plan.lastCommand = s.plan.lastCommand ∧ (laneMove s).plan.pendingCopy = s.plan.pendingCopy ∧
    (laneMove s).seq.state = s.seq.state ∧ (laneMove s).seq.sweepNumber = s.seq.sweepNumber ∧
    (laneMove s).opt.dutyTimer = s.opt.dutyTimer ∧ (laneMove s).intake.stray = s.intake.stray ∧
    (laneMove s).accum.lock = s.accum.lock ∧ (laneMove s).accum.queue = s.accum.queue ∧
    (laneMove s).accum.add = s.accum.add ∧ (laneMove s).trace.view = s.trace.view ∧
    (laneMove s).trace.squeezed = s.trace.squeezed ∧ (laneMove s).findings.post = s.findings.post ∧
    (laneMove s).findings.taken = s.findings.taken ∧
    (laneMove s).findings.sweepEndNotice = s.findings.sweepEndNotice ∧ (laneMove s).path.pass = s.path.pass ∧
    (laneMove s).path.passCount = s.path.passCount ∧ (laneMove s).path.waiting = s.path.waiting ∧
    (laneMove s).path.strayAccess = s.path.strayAccess ∧ (laneMove s).path.guardHit = s.path.guardHit ∧
    (laneMove s).path.readData = s.path.readData ∧ (laneMove s).mem = s.mem ∧ (laneMove s).pins = s.pins ∧
    (laneMove s).freeIndex = s.freeIndex ∧ (laneMove s).pending = s.pending := by
  unfold laneMove
  split <;> simp

@[simp] theorem lanes_frame (a : Nat) (s : State) :
    (lanes a s).plan.lastCommand = s.plan.lastCommand ∧ (lanes a s).plan.pendingCopy = s.plan.pendingCopy ∧
    (lanes a s).seq.state = s.seq.state ∧ (lanes a s).seq.sweepNumber = s.seq.sweepNumber ∧
    (lanes a s).opt.dutyTimer = s.opt.dutyTimer ∧ (lanes a s).intake.stray = s.intake.stray ∧
    (lanes a s).accum.lock = s.accum.lock ∧ (lanes a s).accum.queue = s.accum.queue ∧
    (lanes a s).accum.add = s.accum.add ∧ (lanes a s).trace.view = s.trace.view ∧
    (lanes a s).trace.squeezed = s.trace.squeezed ∧ (lanes a s).findings.post = s.findings.post ∧
    (lanes a s).findings.taken = s.findings.taken ∧
    (lanes a s).findings.sweepEndNotice = s.findings.sweepEndNotice ∧ (lanes a s).path.pass = s.path.pass ∧
    (lanes a s).path.passCount = s.path.passCount ∧ (lanes a s).path.waiting = s.path.waiting ∧
    (lanes a s).path.strayAccess = s.path.strayAccess ∧ (lanes a s).path.guardHit = s.path.guardHit ∧
    (lanes a s).path.readData = s.path.readData ∧ (lanes a s).mem = s.mem ∧ (lanes a s).pins = s.pins ∧
    (lanes a s).freeIndex = s.freeIndex ∧ (lanes a s).pending = s.pending := by
  induction a generalizing s with
  | _ =>
    unfold lanes
    repeat' split
    all_goals simp_all

@[simp] theorem listSlots_frame (a : List SlotIx) (s : State) :
    (listSlots a s).plan = s.plan ∧ (listSlots a s).seq.state = s.seq.state ∧
    (listSlots a s).seq.sweepNumber = s.seq.sweepNumber ∧ (listSlots a s).seq.acq = s.seq.acq ∧
    (listSlots a s).seq.comp = s.seq.comp ∧ (listSlots a s).opt = s.opt ∧ (listSlots a s).intake = s.intake ∧
    (listSlots a s).accum = s.accum ∧ (listSlots a s).trace = s.trace ∧ (listSlots a s).verdict = s.verdict ∧
    (listSlots a s).findings = s.findings ∧ (listSlots a s).mirror = s.mirror ∧ (listSlots a s).path = s.path ∧
    (listSlots a s).mem = s.mem ∧ (listSlots a s).pins = s.pins ∧ (listSlots a s).freeIndex = s.freeIndex ∧
    (listSlots a s).pending = s.pending := by
  induction a generalizing s with
  | _ =>
    simp_all [listSlots]

@[simp] theorem endSteps_frame (reason : EndReason) (s : State) :
    (endSteps reason s).plan = s.plan ∧ (endSteps reason s).seq.state = s.seq.state ∧
    (endSteps reason s).seq.sweepNumber = s.seq.sweepNumber ∧ (endSteps reason s).seq.acq = s.seq.acq ∧
    (endSteps reason s).seq.comp = s.seq.comp ∧ (endSteps reason s).opt = s.opt ∧
    (endSteps reason s).intake = s.intake ∧ (endSteps reason s).accum = s.accum ∧
    (endSteps reason s).trace = s.trace ∧ (endSteps reason s).findings.post = s.findings.post ∧
    (endSteps reason s).findings.taken = s.findings.taken ∧
    (endSteps reason s).findings.sweepEndNotice = s.findings.sweepEndNotice ∧ (endSteps reason s).path = s.path ∧
    (endSteps reason s).mem = s.mem ∧ (endSteps reason s).pins = s.pins ∧
    (endSteps reason s).freeIndex = s.freeIndex ∧ (endSteps reason s).pending = s.pending := by
  unfold endSteps
  split <;> simp

@[simp] theorem enterState_frame (st : SeqState) (s : State) :
    (enterState st s).plan.lastCommand = s.plan.lastCommand ∧
    (enterState st s).plan.pendingCopy = s.plan.pendingCopy ∧
    (enterState st s).seq.sweepNumber = s.seq.sweepNumber ∧ (enterState st s).seq.acq = s.seq.acq ∧
    (enterState st s).seq.comp = s.seq.comp ∧ (enterState st s).seq.outcomes = s.seq.outcomes ∧
    (enterState st s).opt = s.opt ∧ (enterState st s).intake = s.intake ∧
    (enterState st s).accum.lock = s.accum.lock ∧ (enterState st s).accum.queue = s.accum.queue ∧
    (enterState st s).accum.add = s.accum.add ∧ (enterState st s).trace = s.trace ∧
    (enterState st s).findings.post = s.findings.post ∧ (enterState st s).findings.taken = s.findings.taken ∧
    (enterState st s).findings.queue = s.findings.queue ∧
    (enterState st s).findings.sweepEndNotice = s.findings.sweepEndNotice ∧ (enterState st s).path = s.path ∧
    (enterState st s).mem = s.mem ∧ (enterState st s).pins = s.pins ∧ (enterState st s).freeIndex = s.freeIndex ∧
    (enterState st s).pending = s.pending := by
  simp [enterState]

@[simp] theorem startSweep_frame (s : State) :
    (startSweep s).plan.lastCommand = s.plan.lastCommand ∧ (startSweep s).plan.pendingCopy = s.plan.pendingCopy ∧
    (startSweep s).seq.acq = s.seq.acq ∧ (startSweep s).seq.comp = s.seq.comp ∧ (startSweep s).opt = s.opt ∧
    (startSweep s).intake = s.intake ∧ (startSweep s).accum.lock = s.accum.lock ∧
    (startSweep s).accum.queue = s.accum.queue ∧ (startSweep s).accum.add = s.accum.add ∧
    (startSweep s).trace = s.trace ∧ (startSweep s).findings.post = s.findings.post ∧
    (startSweep s).findings.taken = s.findings.taken ∧
    (startSweep s).findings.sweepEndNotice = s.findings.sweepEndNotice ∧ (startSweep s).path = s.path ∧
    (startSweep s).mem = s.mem ∧ (startSweep s).pins = s.pins ∧ (startSweep s).freeIndex = s.freeIndex ∧
    (startSweep s).pending = s.pending := by
  unfold startSweep
  dsimp only
  split <;> simp

@[simp] theorem waitingTest_frame (s : State) :
    (waitingTest s).plan.lastCommand = s.plan.lastCommand ∧ (waitingTest s).plan.pendingCopy = s.plan.pendingCopy ∧
    (waitingTest s).seq.acq = s.seq.acq ∧ (waitingTest s).seq.comp = s.seq.comp ∧ (waitingTest s).opt = s.opt ∧
    (waitingTest s).intake = s.intake ∧ (waitingTest s).accum.lock = s.accum.lock ∧
    (waitingTest s).accum.queue = s.accum.queue ∧ (waitingTest s).accum.add = s.accum.add ∧
    (waitingTest s).trace = s.trace ∧ (waitingTest s).findings.post = s.findings.post ∧
    (waitingTest s).findings.taken = s.findings.taken ∧
    (waitingTest s).findings.sweepEndNotice = s.findings.sweepEndNotice ∧ (waitingTest s).path = s.path ∧
    (waitingTest s).mem = s.mem ∧ (waitingTest s).pins = s.pins ∧ (waitingTest s).freeIndex = s.freeIndex ∧
    (waitingTest s).pending = s.pending := by
  unfold waitingTest
  split <;> simp

@[simp] theorem enterWaiting_frame (s : State) :
    (enterWaiting s).plan.lastCommand = s.plan.lastCommand ∧
    (enterWaiting s).plan.pendingCopy = s.plan.pendingCopy ∧ (enterWaiting s).seq.acq = s.seq.acq ∧
    (enterWaiting s).seq.comp = s.seq.comp ∧ (enterWaiting s).opt = s.opt ∧ (enterWaiting s).intake = s.intake ∧
    (enterWaiting s).accum.lock = s.accum.lock ∧ (enterWaiting s).accum.queue = s.accum.queue ∧
    (enterWaiting s).accum.add = s.accum.add ∧ (enterWaiting s).trace = s.trace ∧
    (enterWaiting s).findings.post = s.findings.post ∧ (enterWaiting s).findings.taken = s.findings.taken ∧
    (enterWaiting s).findings.sweepEndNotice = s.findings.sweepEndNotice ∧ (enterWaiting s).path = s.path ∧
    (enterWaiting s).mem = s.mem ∧ (enterWaiting s).pins = s.pins ∧ (enterWaiting s).freeIndex = s.freeIndex ∧
    (enterWaiting s).pending = s.pending := by
  simp [enterWaiting]

@[simp] theorem startOrWait_frame (s : State) :
    (startOrWait s).plan.lastCommand = s.plan.lastCommand ∧ (startOrWait s).plan.pendingCopy = s.plan.pendingCopy ∧
    (startOrWait s).seq.acq = s.seq.acq ∧ (startOrWait s).seq.comp = s.seq.comp ∧ (startOrWait s).opt = s.opt ∧
    (startOrWait s).intake = s.intake ∧ (startOrWait s).accum.lock = s.accum.lock ∧
    (startOrWait s).accum.queue = s.accum.queue ∧ (startOrWait s).accum.add = s.accum.add ∧
    (startOrWait s).trace = s.trace ∧ (startOrWait s).findings.post = s.findings.post ∧
    (startOrWait s).findings.taken = s.findings.taken ∧
    (startOrWait s).findings.sweepEndNotice = s.findings.sweepEndNotice ∧ (startOrWait s).path = s.path ∧
    (startOrWait s).mem = s.mem ∧ (startOrWait s).pins = s.pins ∧ (startOrWait s).freeIndex = s.freeIndex ∧
    (startOrWait s).pending = s.pending := by
  unfold startOrWait
  split <;> simp

@[simp] theorem afterComplete_frame (s : State) :
    (afterComplete s).plan.lastCommand = s.plan.lastCommand ∧
    (afterComplete s).plan.pendingCopy = s.plan.pendingCopy ∧ (afterComplete s).seq.acq = s.seq.acq ∧
    (afterComplete s).seq.comp = s.seq.comp ∧ (afterComplete s).opt = s.opt ∧ (afterComplete s).intake = s.intake ∧
    (afterComplete s).accum.lock = s.accum.lock ∧ (afterComplete s).accum.queue = s.accum.queue ∧
    (afterComplete s).accum.add = s.accum.add ∧ (afterComplete s).trace = s.trace ∧
    (afterComplete s).findings.post = s.findings.post ∧ (afterComplete s).findings.taken = s.findings.taken ∧
    (afterComplete s).findings.sweepEndNotice = s.findings.sweepEndNotice ∧ (afterComplete s).path = s.path ∧
    (afterComplete s).mem = s.mem ∧ (afterComplete s).pins = s.pins ∧ (afterComplete s).freeIndex = s.freeIndex ∧
    (afterComplete s).pending = s.pending := by
  unfold afterComplete
  repeat' split
  all_goals simp

@[simp] theorem endSweep_frame (s : State) :
    (endSweep s).plan.lastCommand = s.plan.lastCommand ∧ (endSweep s).plan.pendingCopy = s.plan.pendingCopy ∧
    (endSweep s).seq.acq = s.seq.acq ∧ (endSweep s).seq.comp = s.seq.comp ∧ (endSweep s).opt = s.opt ∧
    (endSweep s).intake = s.intake ∧ (endSweep s).accum.lock = s.accum.lock ∧
    (endSweep s).accum.queue = s.accum.queue ∧ (endSweep s).accum.add = s.accum.add ∧ (endSweep s).trace = s.trace ∧
    (endSweep s).findings.post = s.findings.post ∧ (endSweep s).findings.taken = s.findings.taken ∧
    (endSweep s).findings.sweepEndNotice = s.findings.sweepEndNotice ∧ (endSweep s).path = s.path ∧
    (endSweep s).mem = s.mem ∧ (endSweep s).pins = s.pins ∧ (endSweep s).freeIndex = s.freeIndex ∧
    (endSweep s).pending = s.pending := by
  unfold endSweep
  split <;> simp

@[simp] theorem sweepOn_frame (a : Nat) (s : State) :
    (sweepOn a s).plan.lastCommand = s.plan.lastCommand ∧ (sweepOn a s).plan.pendingCopy = s.plan.pendingCopy ∧
    (sweepOn a s).opt.dutyTimer = s.opt.dutyTimer ∧ (sweepOn a s).intake.stray = s.intake.stray ∧
    (sweepOn a s).accum.lock = s.accum.lock ∧ (sweepOn a s).accum.queue = s.accum.queue ∧
    (sweepOn a s).accum.add = s.accum.add ∧ (sweepOn a s).trace.view = s.trace.view ∧
    (sweepOn a s).trace.squeezed = s.trace.squeezed ∧ (sweepOn a s).findings.post = s.findings.post ∧
    (sweepOn a s).findings.taken = s.findings.taken ∧
    (sweepOn a s).findings.sweepEndNotice = s.findings.sweepEndNotice ∧ (sweepOn a s).path.pass = s.path.pass ∧
    (sweepOn a s).path.passCount = s.path.passCount ∧ (sweepOn a s).path.waiting = s.path.waiting ∧
    (sweepOn a s).path.strayAccess = s.path.strayAccess ∧ (sweepOn a s).path.guardHit = s.path.guardHit ∧
    (sweepOn a s).path.readData = s.path.readData ∧ (sweepOn a s).mem = s.mem ∧ (sweepOn a s).pins = s.pins ∧
    (sweepOn a s).freeIndex = s.freeIndex ∧ (sweepOn a s).pending = s.pending := by
  induction a generalizing s with
  | _ =>
    unfold sweepOn
    try dsimp only
    repeat' split
    all_goals simp_all

@[simp] theorem advance_frame (s : State) :
    (advance s).plan.lastCommand = s.plan.lastCommand ∧ (advance s).plan.pendingCopy = s.plan.pendingCopy ∧
    (advance s).opt.dutyTimer = s.opt.dutyTimer ∧ (advance s).intake.stray = s.intake.stray ∧
    (advance s).findings.post = s.findings.post ∧ (advance s).findings.taken = s.findings.taken ∧
    (advance s).findings.sweepEndNotice = s.findings.sweepEndNotice ∧ (advance s).path.pass = s.path.pass ∧
    (advance s).path.passCount = s.path.passCount ∧ (advance s).path.waiting = s.path.waiting ∧
    (advance s).path.strayAccess = s.path.strayAccess ∧ (advance s).path.guardHit = s.path.guardHit ∧
    (advance s).mem = s.mem ∧ (advance s).pins = s.pins ∧ (advance s).freeIndex = s.freeIndex ∧
    (advance s).pending = s.pending := by
  simp [advance]

@[simp] theorem dropAcquisition_frame (k : SlotIx) (s : State) :
    (dropAcquisition k s).plan = s.plan ∧ (dropAcquisition k s).seq.state = s.seq.state ∧
    (dropAcquisition k s).seq.sweepNumber = s.seq.sweepNumber ∧ (dropAcquisition k s).seq.comp = s.seq.comp ∧
    (dropAcquisition k s).seq.outcomes = s.seq.outcomes ∧ (dropAcquisition k s).opt.warm = s.opt.warm ∧
    (dropAcquisition k s).opt.warmUpTimer = s.opt.warmUpTimer ∧
    (dropAcquisition k s).opt.warmHoldTimer = s.opt.warmHoldTimer ∧
    (dropAcquisition k s).opt.dutyTimer = s.opt.dutyTimer ∧ (dropAcquisition k s).opt.dutyCount = s.opt.dutyCount ∧
    (dropAcquisition k s).opt.port = s.opt.port ∧ (dropAcquisition k s).opt.strobes = s.opt.strobes ∧
    (dropAcquisition k s).intake.stray = s.intake.stray ∧
    (dropAcquisition k s).intake.accepted = s.intake.accepted ∧ (dropAcquisition k s).trace.bg = s.trace.bg ∧
    (dropAcquisition k s).trace.summary = s.trace.summary ∧ (dropAcquisition k s).trace.capture = s.trace.capture ∧
    (dropAcquisition k s).verdict = s.verdict ∧ (dropAcquisition k s).findings = s.findings ∧
    (dropAcquisition k s).mirror = s.mirror ∧ (dropAcquisition k s).path.pass = s.path.pass ∧
    (dropAcquisition k s).path.passCount = s.path.passCount ∧ (dropAcquisition k s).path.waiting = s.path.waiting ∧
    (dropAcquisition k s).path.strayAccess = s.path.strayAccess ∧
    (dropAcquisition k s).path.guardHit = s.path.guardHit ∧ (dropAcquisition k s).mem = s.mem ∧
    (dropAcquisition k s).pins = s.pins ∧ (dropAcquisition k s).pending = s.pending := by
  simp [dropAcquisition]

@[simp] theorem abandonAcquisition_frame (keepSource : Bool) (s : State) :
    (abandonAcquisition keepSource s).plan = s.plan ∧ (abandonAcquisition keepSource s).seq.state = s.seq.state ∧
    (abandonAcquisition keepSource s).seq.sweepNumber = s.seq.sweepNumber ∧
    (abandonAcquisition keepSource s).seq.comp = s.seq.comp ∧
    (abandonAcquisition keepSource s).seq.outcomes = s.seq.outcomes ∧
    (abandonAcquisition keepSource s).opt.dutyTimer = s.opt.dutyTimer ∧
    (abandonAcquisition keepSource s).opt.dutyCount = s.opt.dutyCount ∧
    (abandonAcquisition keepSource s).opt.port = s.opt.port ∧
    (abandonAcquisition keepSource s).opt.strobes = s.opt.strobes ∧
    (abandonAcquisition keepSource s).intake.stray = s.intake.stray ∧
    (abandonAcquisition keepSource s).intake.accepted = s.intake.accepted ∧
    (abandonAcquisition keepSource s).trace.bg = s.trace.bg ∧
    (abandonAcquisition keepSource s).trace.summary = s.trace.summary ∧
    (abandonAcquisition keepSource s).trace.capture = s.trace.capture ∧
    (abandonAcquisition keepSource s).verdict = s.verdict ∧
    (abandonAcquisition keepSource s).findings = s.findings ∧
    (abandonAcquisition keepSource s).path.pass = s.path.pass ∧
    (abandonAcquisition keepSource s).path.passCount = s.path.passCount ∧
    (abandonAcquisition keepSource s).path.waiting = s.path.waiting ∧
    (abandonAcquisition keepSource s).path.strayAccess = s.path.strayAccess ∧
    (abandonAcquisition keepSource s).path.guardHit = s.path.guardHit ∧
    (abandonAcquisition keepSource s).mem = s.mem ∧ (abandonAcquisition keepSource s).pins = s.pins ∧
    (abandonAcquisition keepSource s).pending = s.pending := by
  unfold abandonAcquisition
  repeat' split
  all_goals simp

@[simp] theorem abandonComparison_frame (s : State) :
    (abandonComparison s).plan = s.plan ∧ (abandonComparison s).seq.state = s.seq.state ∧
    (abandonComparison s).seq.sweepNumber = s.seq.sweepNumber ∧ (abandonComparison s).seq.acq = s.seq.acq ∧
    (abandonComparison s).seq.outcomes = s.seq.outcomes ∧ (abandonComparison s).opt = s.opt ∧
    (abandonComparison s).intake = s.intake ∧ (abandonComparison s).accum.lock = s.accum.lock ∧
    (abandonComparison s).accum.queue = s.accum.queue ∧ (abandonComparison s).accum.add = s.accum.add ∧
    (abandonComparison s).trace.view = s.trace.view ∧ (abandonComparison s).trace.summary = s.trace.summary ∧
    (abandonComparison s).trace.capture = s.trace.capture ∧
    (abandonComparison s).trace.squeezed = s.trace.squeezed ∧ (abandonComparison s).verdict = s.verdict ∧
    (abandonComparison s).findings = s.findings ∧ (abandonComparison s).path.pass = s.path.pass ∧
    (abandonComparison s).path.passCount = s.path.passCount ∧ (abandonComparison s).path.waiting = s.path.waiting ∧
    (abandonComparison s).path.strayAccess = s.path.strayAccess ∧
    (abandonComparison s).path.guardHit = s.path.guardHit ∧ (abandonComparison s).path.readData = s.path.readData ∧
    (abandonComparison s).mem = s.mem ∧ (abandonComparison s).pins = s.pins ∧
    (abandonComparison s).freeIndex = s.freeIndex ∧ (abandonComparison s).pending = s.pending := by
  unfold abandonComparison
  split <;> simp

@[simp] theorem abandonLanes_frame (keepSource : Bool) (s : State) :
    (abandonLanes keepSource s).plan = s.plan ∧ (abandonLanes keepSource s).seq.state = s.seq.state ∧
    (abandonLanes keepSource s).seq.sweepNumber = s.seq.sweepNumber ∧
    (abandonLanes keepSource s).seq.outcomes = s.seq.outcomes ∧
    (abandonLanes keepSource s).opt.dutyTimer = s.opt.dutyTimer ∧
    (abandonLanes keepSource s).opt.dutyCount = s.opt.dutyCount ∧
    (abandonLanes keepSource s).opt.port = s.opt.port ∧ (abandonLanes keepSource s).opt.strobes = s.opt.strobes ∧
    (abandonLanes keepSource s).intake.stray = s.intake.stray ∧
    (abandonLanes keepSource s).intake.accepted = s.intake.accepted ∧
    (abandonLanes keepSource s).trace.summary = s.trace.summary ∧
    (abandonLanes keepSource s).trace.capture = s.trace.capture ∧ (abandonLanes keepSource s).verdict = s.verdict ∧
    (abandonLanes keepSource s).findings = s.findings ∧ (abandonLanes keepSource s).path.pass = s.path.pass ∧
    (abandonLanes keepSource s).path.passCount = s.path.passCount ∧
    (abandonLanes keepSource s).path.waiting = s.path.waiting ∧
    (abandonLanes keepSource s).path.strayAccess = s.path.strayAccess ∧
    (abandonLanes keepSource s).path.guardHit = s.path.guardHit ∧ (abandonLanes keepSource s).mem = s.mem ∧
    (abandonLanes keepSource s).pins = s.pins ∧ (abandonLanes keepSource s).pending = s.pending := by
  simp [abandonLanes]

@[simp] theorem takePosted_frame (s : State) :
    (takePosted s).plan = s.plan ∧ (takePosted s).seq.state = s.seq.state ∧
    (takePosted s).seq.sweepNumber = s.seq.sweepNumber ∧ (takePosted s).seq.acq = s.seq.acq ∧
    (takePosted s).opt = s.opt ∧ (takePosted s).intake = s.intake ∧ (takePosted s).accum = s.accum ∧
    (takePosted s).trace = s.trace ∧ (takePosted s).findings.post = s.findings.post ∧
    (takePosted s).findings.taken = s.findings.taken ∧
    (takePosted s).findings.sweepEndNotice = s.findings.sweepEndNotice ∧ (takePosted s).path.pass = s.path.pass ∧
    (takePosted s).path.passCount = s.path.passCount ∧ (takePosted s).path.waiting = s.path.waiting ∧
    (takePosted s).path.strayAccess = s.path.strayAccess ∧ (takePosted s).path.guardHit = s.path.guardHit ∧
    (takePosted s).path.readData = s.path.readData ∧ (takePosted s).mem = s.mem ∧ (takePosted s).pins = s.pins ∧
    (takePosted s).freeIndex = s.freeIndex ∧ (takePosted s).pending = s.pending := by
  unfold takePosted
  split <;> simp

end Sys2Proof.Machine
end

