-- ==== Sys2Proof/Laws/FramesBus.lean ====
section
/-! SUPPORT. Frames: which fields of the state the operations leave unchanged: those of
the commands, the Memory Path Unit, the lines and the timers.
One lemma an operation, in the order of the definitions, each used by those after it. -/

namespace Sys2Proof.Machine

/-! ### Machine/Commands.lean -/

@[simp] theorem endAllWork_frame (s : State) :
    (endAllWork s).plan = s.plan ∧ (endAllWork s).seq.state = s.seq.state ∧
    (endAllWork s).seq.sweepNumber = s.seq.sweepNumber ∧ (endAllWork s).seq.outcomes = s.seq.outcomes ∧
    (endAllWork s).opt.dutyTimer = s.opt.dutyTimer ∧ (endAllWork s).opt.dutyCount = s.opt.dutyCount ∧
    (endAllWork s).opt.port = s.opt.port ∧ (endAllWork s).opt.strobes = s.opt.strobes ∧
    (endAllWork s).intake.stray = s.intake.stray ∧ (endAllWork s).intake.accepted = s.intake.accepted ∧
    (endAllWork s).trace.summary = s.trace.summary ∧ (endAllWork s).trace.capture = s.trace.capture ∧
    (endAllWork s).verdict.table = s.verdict.table ∧ (endAllWork s).findings = s.findings ∧
    (endAllWork s).path.pass = s.path.pass ∧ (endAllWork s).path.passCount = s.path.passCount ∧
    (endAllWork s).path.waiting = s.path.waiting ∧ (endAllWork s).path.strayAccess = s.path.strayAccess ∧
    (endAllWork s).path.guardHit = s.path.guardHit ∧ (endAllWork s).mem = s.mem ∧ (endAllWork s).pins = s.pins ∧
    (endAllWork s).pending = s.pending := by
  unfold endAllWork
  split <;> simp

@[simp] theorem quenchOptics_frame (s : State) :
    (quenchOptics s).plan = s.plan ∧ (quenchOptics s).seq = s.seq ∧
    (quenchOptics s).opt.dutyTimer = s.opt.dutyTimer ∧ (quenchOptics s).opt.dutyCount = s.opt.dutyCount ∧
    (quenchOptics s).opt.port = s.opt.port ∧ (quenchOptics s).opt.strobes = s.opt.strobes ∧
    (quenchOptics s).intake = s.intake ∧ (quenchOptics s).accum = s.accum ∧ (quenchOptics s).trace = s.trace ∧
    (quenchOptics s).verdict = s.verdict ∧ (quenchOptics s).findings = s.findings ∧
    (quenchOptics s).mirror = s.mirror ∧ (quenchOptics s).path = s.path ∧ (quenchOptics s).mem = s.mem ∧
    (quenchOptics s).pins = s.pins ∧ (quenchOptics s).freeIndex = s.freeIndex ∧
    (quenchOptics s).pending = s.pending := by
  simp [quenchOptics]

@[simp] theorem restSequencer_frame (st : SeqState) (s : State) :
    (restSequencer st s).plan = s.plan ∧ (restSequencer st s).seq.sweepNumber = s.seq.sweepNumber ∧
    (restSequencer st s).seq.acq = s.seq.acq ∧ (restSequencer st s).seq.comp = s.seq.comp ∧
    (restSequencer st s).seq.outcomes = s.seq.outcomes ∧ (restSequencer st s).opt = s.opt ∧
    (restSequencer st s).intake = s.intake ∧ (restSequencer st s).accum = s.accum ∧
    (restSequencer st s).trace = s.trace ∧ (restSequencer st s).verdict = s.verdict ∧
    (restSequencer st s).findings = s.findings ∧ (restSequencer st s).mirror = s.mirror ∧
    (restSequencer st s).path = s.path ∧ (restSequencer st s).mem = s.mem ∧ (restSequencer st s).pins = s.pins ∧
    (restSequencer st s).freeIndex = s.freeIndex ∧ (restSequencer st s).pending = s.pending := by
  simp [restSequencer]

@[simp] theorem commandEnable_frame (s : State) :
    (commandEnable s).1.plan = s.plan ∧ (commandEnable s).1.seq.sweepNumber = s.seq.sweepNumber ∧
    (commandEnable s).1.seq.acq = s.seq.acq ∧ (commandEnable s).1.seq.comp = s.seq.comp ∧
    (commandEnable s).1.seq.outcomes = s.seq.outcomes ∧ (commandEnable s).1.opt.warm = s.opt.warm ∧
    (commandEnable s).1.opt.warmUpTimer = s.opt.warmUpTimer ∧
    (commandEnable s).1.opt.warmHoldTimer = s.opt.warmHoldTimer ∧ (commandEnable s).1.opt.port = s.opt.port ∧
    (commandEnable s).1.opt.strobes = s.opt.strobes ∧ (commandEnable s).1.intake = s.intake ∧
    (commandEnable s).1.accum = s.accum ∧ (commandEnable s).1.trace = s.trace ∧
    (commandEnable s).1.verdict = s.verdict ∧ (commandEnable s).1.findings = s.findings ∧
    (commandEnable s).1.mirror = s.mirror ∧ (commandEnable s).1.path = s.path ∧ (commandEnable s).1.mem = s.mem ∧
    (commandEnable s).1.pins = s.pins ∧ (commandEnable s).1.freeIndex = s.freeIndex ∧
    (commandEnable s).1.pending = s.pending := by
  unfold commandEnable
  repeat' split
  all_goals simp

@[simp] theorem commandDisable_frame (s : State) :
    (commandDisable s).1.plan.lastCommand = s.plan.lastCommand ∧
    (commandDisable s).1.plan.pendingCopy = s.plan.pendingCopy ∧
    (commandDisable s).1.seq.sweepNumber = s.seq.sweepNumber ∧ (commandDisable s).1.seq.outcomes = s.seq.outcomes ∧
    (commandDisable s).1.opt.strobes = s.opt.strobes ∧ (commandDisable s).1.intake.stray = s.intake.stray ∧
    (commandDisable s).1.intake.accepted = s.intake.accepted ∧
    (commandDisable s).1.trace.summary = s.trace.summary ∧ (commandDisable s).1.trace.capture = s.trace.capture ∧
    (commandDisable s).1.findings.post = s.findings.post ∧ (commandDisable s).1.findings.taken = s.findings.taken ∧
    (commandDisable s).1.findings.queue = s.findings.queue ∧
    (commandDisable s).1.findings.sweepEndNotice = s.findings.sweepEndNotice ∧
    (commandDisable s).1.path.pass = s.path.pass ∧ (commandDisable s).1.path.passCount = s.path.passCount ∧
    (commandDisable s).1.path.waiting = s.path.waiting ∧
    (commandDisable s).1.path.strayAccess = s.path.strayAccess ∧
    (commandDisable s).1.path.guardHit = s.path.guardHit ∧ (commandDisable s).1.mem = s.mem ∧
    (commandDisable s).1.pins = s.pins ∧ (commandDisable s).1.pending = s.pending := by
  simp [commandDisable]

@[simp] theorem commandStart_frame (s : State) :
    (commandStart s).1.plan.lastCommand = s.plan.lastCommand ∧
    (commandStart s).1.plan.pendingCopy = s.plan.pendingCopy ∧ (commandStart s).1.seq.acq = s.seq.acq ∧
    (commandStart s).1.seq.comp = s.seq.comp ∧ (commandStart s).1.opt = s.opt ∧
    (commandStart s).1.intake = s.intake ∧ (commandStart s).1.accum.lock = s.accum.lock ∧
    (commandStart s).1.accum.queue = s.accum.queue ∧ (commandStart s).1.accum.add = s.accum.add ∧
    (commandStart s).1.trace = s.trace ∧ (commandStart s).1.findings.post = s.findings.post ∧
    (commandStart s).1.findings.taken = s.findings.taken ∧
    (commandStart s).1.findings.sweepEndNotice = s.findings.sweepEndNotice ∧ (commandStart s).1.path = s.path ∧
    (commandStart s).1.mem = s.mem ∧ (commandStart s).1.pins = s.pins ∧ (commandStart s).1.freeIndex = s.freeIndex ∧
    (commandStart s).1.pending = s.pending := by
  unfold commandStart
  repeat' split
  all_goals simp

@[simp] theorem commandStop_frame (s : State) :
    (commandStop s).1.plan.lastCommand = s.plan.lastCommand ∧
    (commandStop s).1.plan.pendingCopy = s.plan.pendingCopy ∧
    (commandStop s).1.seq.sweepNumber = s.seq.sweepNumber ∧ (commandStop s).1.opt.dutyTimer = s.opt.dutyTimer ∧
    (commandStop s).1.opt.dutyCount = s.opt.dutyCount ∧ (commandStop s).1.opt.port = s.opt.port ∧
    (commandStop s).1.opt.strobes = s.opt.strobes ∧ (commandStop s).1.intake.stray = s.intake.stray ∧
    (commandStop s).1.intake.accepted = s.intake.accepted ∧ (commandStop s).1.trace.summary = s.trace.summary ∧
    (commandStop s).1.trace.capture = s.trace.capture ∧ (commandStop s).1.findings.post = s.findings.post ∧
    (commandStop s).1.findings.taken = s.findings.taken ∧
    (commandStop s).1.findings.sweepEndNotice = s.findings.sweepEndNotice ∧
    (commandStop s).1.path.pass = s.path.pass ∧ (commandStop s).1.path.passCount = s.path.passCount ∧
    (commandStop s).1.path.waiting = s.path.waiting ∧ (commandStop s).1.path.strayAccess = s.path.strayAccess ∧
    (commandStop s).1.path.guardHit = s.path.guardHit ∧ (commandStop s).1.mem = s.mem ∧
    (commandStop s).1.pins = s.pins ∧ (commandStop s).1.pending = s.pending := by
  unfold commandStop
  split <;> simp

@[simp] theorem commandResume_frame (s : State) :
    (commandResume s).1.plan = s.plan ∧ (commandResume s).1.seq.sweepNumber = s.seq.sweepNumber ∧
    (commandResume s).1.seq.acq = s.seq.acq ∧ (commandResume s).1.seq.comp = s.seq.comp ∧
    (commandResume s).1.seq.outcomes = s.seq.outcomes ∧ (commandResume s).1.opt = s.opt ∧
    (commandResume s).1.intake = s.intake ∧ (commandResume s).1.accum = s.accum ∧
    (commandResume s).1.trace = s.trace ∧ (commandResume s).1.verdict = s.verdict ∧
    (commandResume s).1.findings = s.findings ∧ (commandResume s).1.mirror = s.mirror ∧
    (commandResume s).1.path = s.path ∧ (commandResume s).1.mem = s.mem ∧ (commandResume s).1.pins = s.pins ∧
    (commandResume s).1.freeIndex = s.freeIndex ∧ (commandResume s).1.pending = s.pending := by
  unfold commandResume
  split <;> simp

@[simp] theorem restartNext_frame (s : State) :
    (restartNext s).plan.lastCommand = s.plan.lastCommand ∧ (restartNext s).plan.pendingCopy = s.plan.pendingCopy ∧
    (restartNext s).seq.acq = s.seq.acq ∧ (restartNext s).seq.comp = s.seq.comp ∧ (restartNext s).opt = s.opt ∧
    (restartNext s).intake = s.intake ∧ (restartNext s).accum.lock = s.accum.lock ∧
    (restartNext s).accum.queue = s.accum.queue ∧ (restartNext s).accum.add = s.accum.add ∧
    (restartNext s).trace = s.trace ∧ (restartNext s).findings.post = s.findings.post ∧
    (restartNext s).findings.taken = s.findings.taken ∧
    (restartNext s).findings.sweepEndNotice = s.findings.sweepEndNotice ∧ (restartNext s).path = s.path ∧
    (restartNext s).mem = s.mem ∧ (restartNext s).pins = s.pins ∧ (restartNext s).freeIndex = s.freeIndex ∧
    (restartNext s).pending = s.pending := by
  unfold restartNext
  split <;> simp

@[simp] theorem commandRestart_frame (s : State) :
    (commandRestart s).1.plan.lastCommand = s.plan.lastCommand ∧
    (commandRestart s).1.plan.pendingCopy = s.plan.pendingCopy ∧
    (commandRestart s).1.opt.dutyTimer = s.opt.dutyTimer ∧ (commandRestart s).1.opt.dutyCount = s.opt.dutyCount ∧
    (commandRestart s).1.opt.port = s.opt.port ∧ (commandRestart s).1.opt.strobes = s.opt.strobes ∧
    (commandRestart s).1.intake.stray = s.intake.stray ∧ (commandRestart s).1.intake.accepted = s.intake.accepted ∧
    (commandRestart s).1.trace.summary = s.trace.summary ∧ (commandRestart s).1.trace.capture = s.trace.capture ∧
    (commandRestart s).1.findings.post = s.findings.post ∧ (commandRestart s).1.findings.taken = s.findings.taken ∧
    (commandRestart s).1.findings.sweepEndNotice = s.findings.sweepEndNotice ∧
    (commandRestart s).1.path.pass = s.path.pass ∧ (commandRestart s).1.path.passCount = s.path.passCount ∧
    (commandRestart s).1.path.waiting = s.path.waiting ∧
    (commandRestart s).1.path.strayAccess = s.path.strayAccess ∧
    (commandRestart s).1.path.guardHit = s.path.guardHit ∧ (commandRestart s).1.mem = s.mem ∧
    (commandRestart s).1.pins = s.pins ∧ (commandRestart s).1.pending = s.pending := by
  unfold commandRestart
  split <;> simp

@[simp] theorem commandRelease_frame (s : State) :
    (commandRelease s).1.plan.lastCommand = s.plan.lastCommand ∧
    (commandRelease s).1.plan.pendingCopy = s.plan.pendingCopy ∧ (commandRelease s).1.seq.acq = s.seq.acq ∧
    (commandRelease s).1.seq.comp = s.seq.comp ∧ (commandRelease s).1.opt = s.opt ∧
    (commandRelease s).1.intake = s.intake ∧ (commandRelease s).1.accum.lock = s.accum.lock ∧
    (commandRelease s).1.accum.queue = s.accum.queue ∧ (commandRelease s).1.accum.add = s.accum.add ∧
    (commandRelease s).1.trace = s.trace ∧ (commandRelease s).1.findings.post = s.findings.post ∧
    (commandRelease s).1.findings.taken = s.findings.taken ∧
    (commandRelease s).1.findings.sweepEndNotice = s.findings.sweepEndNotice ∧ (commandRelease s).1.path = s.path ∧
    (commandRelease s).1.mem = s.mem ∧ (commandRelease s).1.pins = s.pins ∧
    (commandRelease s).1.freeIndex = s.freeIndex ∧ (commandRelease s).1.pending = s.pending := by
  unfold commandRelease
  split <;> simp

@[simp] theorem commandTrigger_frame (s : State) :
    (commandTrigger s).1.plan.lastCommand = s.plan.lastCommand ∧
    (commandTrigger s).1.plan.pendingCopy = s.plan.pendingCopy ∧ (commandTrigger s).1.seq.acq = s.seq.acq ∧
    (commandTrigger s).1.seq.comp = s.seq.comp ∧ (commandTrigger s).1.opt = s.opt ∧
    (commandTrigger s).1.intake = s.intake ∧ (commandTrigger s).1.accum.lock = s.accum.lock ∧
    (commandTrigger s).1.accum.queue = s.accum.queue ∧ (commandTrigger s).1.accum.add = s.accum.add ∧
    (commandTrigger s).1.trace = s.trace ∧ (commandTrigger s).1.findings.post = s.findings.post ∧
    (commandTrigger s).1.findings.taken = s.findings.taken ∧
    (commandTrigger s).1.findings.sweepEndNotice = s.findings.sweepEndNotice ∧ (commandTrigger s).1.path = s.path ∧
    (commandTrigger s).1.mem = s.mem ∧ (commandTrigger s).1.pins = s.pins ∧
    (commandTrigger s).1.freeIndex = s.freeIndex ∧ (commandTrigger s).1.pending = s.pending := by
  unfold commandTrigger
  split <;> simp

@[simp] theorem clearMarks_frame (s : State) :
    (clearMarks s).plan = s.plan ∧ (clearMarks s).seq = s.seq ∧ (clearMarks s).opt = s.opt ∧
    (clearMarks s).intake.accepted = s.intake.accepted ∧ (clearMarks s).intake.outstanding = s.intake.outstanding ∧
    (clearMarks s).accum = s.accum ∧ (clearMarks s).trace.bg = s.trace.bg ∧
    (clearMarks s).trace.view = s.trace.view ∧ (clearMarks s).verdict = s.verdict ∧
    (clearMarks s).findings.post = s.findings.post ∧ (clearMarks s).findings.taken = s.findings.taken ∧
    (clearMarks s).findings.queue = s.findings.queue ∧
    (clearMarks s).findings.sweepEndNotice = s.findings.sweepEndNotice ∧ (clearMarks s).mirror = s.mirror ∧
    (clearMarks s).path.pass = s.path.pass ∧ (clearMarks s).path.passCount = s.path.passCount ∧
    (clearMarks s).path.waiting = s.path.waiting ∧ (clearMarks s).path.guards = s.path.guards ∧
    (clearMarks s).path.readData = s.path.readData ∧ (clearMarks s).mem = s.mem ∧ (clearMarks s).pins = s.pins ∧
    (clearMarks s).freeIndex = s.freeIndex ∧ (clearMarks s).pending = s.pending := by
  simp [clearMarks]

@[simp] theorem commandClearConditions_frame (s : State) :
    (commandClearConditions s).1.plan = s.plan ∧ (commandClearConditions s).1.seq = s.seq ∧
    (commandClearConditions s).1.opt = s.opt ∧ (commandClearConditions s).1.intake.accepted = s.intake.accepted ∧
    (commandClearConditions s).1.intake.outstanding = s.intake.outstanding ∧
    (commandClearConditions s).1.accum = s.accum ∧ (commandClearConditions s).1.trace.bg = s.trace.bg ∧
    (commandClearConditions s).1.trace.view = s.trace.view ∧ (commandClearConditions s).1.verdict = s.verdict ∧
    (commandClearConditions s).1.findings.post = s.findings.post ∧
    (commandClearConditions s).1.findings.taken = s.findings.taken ∧
    (commandClearConditions s).1.findings.sweepEndNotice = s.findings.sweepEndNotice ∧
    (commandClearConditions s).1.mirror = s.mirror ∧ (commandClearConditions s).1.path.pass = s.path.pass ∧
    (commandClearConditions s).1.path.passCount = s.path.passCount ∧
    (commandClearConditions s).1.path.waiting = s.path.waiting ∧
    (commandClearConditions s).1.path.guards = s.path.guards ∧
    (commandClearConditions s).1.path.readData = s.path.readData ∧ (commandClearConditions s).1.mem = s.mem ∧
    (commandClearConditions s).1.pins = s.pins ∧ (commandClearConditions s).1.freeIndex = s.freeIndex ∧
    (commandClearConditions s).1.pending = s.pending := by
  simp [commandClearConditions]

@[simp] theorem commandReinit_frame (s : State) :
    (commandReinit s).1.plan.lastCommand = s.plan.lastCommand ∧
    (commandReinit s).1.plan.pendingCopy = s.plan.pendingCopy ∧
    (commandReinit s).1.seq.sweepNumber = s.seq.sweepNumber ∧ (commandReinit s).1.seq.outcomes = s.seq.outcomes ∧
    (commandReinit s).1.opt.dutyTimer = s.opt.dutyTimer ∧ (commandReinit s).1.opt.dutyCount = s.opt.dutyCount ∧
    (commandReinit s).1.opt.strobes = s.opt.strobes ∧ (commandReinit s).1.intake.accepted = s.intake.accepted ∧
    (commandReinit s).1.findings.post = s.findings.post ∧ (commandReinit s).1.findings.taken = s.findings.taken ∧
    (commandReinit s).1.path.pass = s.path.pass ∧ (commandReinit s).1.path.passCount = s.path.passCount ∧
    (commandReinit s).1.path.waiting = s.path.waiting ∧ (commandReinit s).1.mem = s.mem ∧
    (commandReinit s).1.pins = s.pins ∧ (commandReinit s).1.pending = s.pending := by
  simp [commandReinit]

@[simp] theorem commandAckNotices_frame (s : State) :
    (commandAckNotices s).1.plan = s.plan ∧ (commandAckNotices s).1.seq = s.seq ∧
    (commandAckNotices s).1.opt = s.opt ∧ (commandAckNotices s).1.intake = s.intake ∧
    (commandAckNotices s).1.accum = s.accum ∧ (commandAckNotices s).1.trace = s.trace ∧
    (commandAckNotices s).1.verdict = s.verdict ∧ (commandAckNotices s).1.findings.post = s.findings.post ∧
    (commandAckNotices s).1.findings.taken = s.findings.taken ∧
    (commandAckNotices s).1.findings.queue = s.findings.queue ∧ (commandAckNotices s).1.mirror = s.mirror ∧
    (commandAckNotices s).1.path = s.path ∧ (commandAckNotices s).1.mem = s.mem ∧
    (commandAckNotices s).1.pins = s.pins ∧ (commandAckNotices s).1.freeIndex = s.freeIndex ∧
    (commandAckNotices s).1.pending = s.pending := by
  simp [commandAckNotices]

@[simp] theorem commandAdopt_frame (k : SlotIx) (s : State) :
    (commandAdopt k s).1.plan.lastCommand = s.plan.lastCommand ∧
    (commandAdopt k s).1.plan.pendingCopy = s.plan.pendingCopy ∧ (commandAdopt k s).1.seq.state = s.seq.state ∧
    (commandAdopt k s).1.seq.sweepNumber = s.seq.sweepNumber ∧ (commandAdopt k s).1.seq.acq = s.seq.acq ∧
    (commandAdopt k s).1.seq.outcomes = s.seq.outcomes ∧ (commandAdopt k s).1.opt = s.opt ∧
    (commandAdopt k s).1.intake = s.intake ∧ (commandAdopt k s).1.accum.lock = s.accum.lock ∧
    (commandAdopt k s).1.accum.queue = s.accum.queue ∧ (commandAdopt k s).1.accum.add = s.accum.add ∧
    (commandAdopt k s).1.trace.view = s.trace.view ∧ (commandAdopt k s).1.trace.squeezed = s.trace.squeezed ∧
    (commandAdopt k s).1.findings.post = s.findings.post ∧ (commandAdopt k s).1.findings.taken = s.findings.taken ∧
    (commandAdopt k s).1.findings.sweepEndNotice = s.findings.sweepEndNotice ∧
    (commandAdopt k s).1.path.pass = s.path.pass ∧ (commandAdopt k s).1.path.passCount = s.path.passCount ∧
    (commandAdopt k s).1.path.waiting = s.path.waiting ∧
    (commandAdopt k s).1.path.strayAccess = s.path.strayAccess ∧
    (commandAdopt k s).1.path.guardHit = s.path.guardHit ∧ (commandAdopt k s).1.path.readData = s.path.readData ∧
    (commandAdopt k s).1.mem = s.mem ∧ (commandAdopt k s).1.pins = s.pins ∧
    (commandAdopt k s).1.freeIndex = s.freeIndex ∧ (commandAdopt k s).1.pending = s.pending := by
  unfold commandAdopt
  repeat' split
  all_goals simp

@[simp] theorem commandCompare_frame (k : SlotIx) (s : State) :
    (commandCompare k s).1.plan.lastCommand = s.plan.lastCommand ∧
    (commandCompare k s).1.plan.pendingCopy = s.plan.pendingCopy ∧ (commandCompare k s).1.seq.state = s.seq.state ∧
    (commandCompare k s).1.seq.sweepNumber = s.seq.sweepNumber ∧ (commandCompare k s).1.seq.acq = s.seq.acq ∧
    (commandCompare k s).1.seq.outcomes = s.seq.outcomes ∧ (commandCompare k s).1.opt = s.opt ∧
    (commandCompare k s).1.intake = s.intake ∧ (commandCompare k s).1.accum.lock = s.accum.lock ∧
    (commandCompare k s).1.accum.queue = s.accum.queue ∧ (commandCompare k s).1.accum.add = s.accum.add ∧
    (commandCompare k s).1.trace.view = s.trace.view ∧ (commandCompare k s).1.trace.squeezed = s.trace.squeezed ∧
    (commandCompare k s).1.findings.post = s.findings.post ∧
    (commandCompare k s).1.findings.taken = s.findings.taken ∧
    (commandCompare k s).1.findings.sweepEndNotice = s.findings.sweepEndNotice ∧
    (commandCompare k s).1.path.pass = s.path.pass ∧ (commandCompare k s).1.path.passCount = s.path.passCount ∧
    (commandCompare k s).1.path.waiting = s.path.waiting ∧
    (commandCompare k s).1.path.strayAccess = s.path.strayAccess ∧
    (commandCompare k s).1.path.guardHit = s.path.guardHit ∧
    (commandCompare k s).1.path.readData = s.path.readData ∧ (commandCompare k s).1.mem = s.mem ∧
    (commandCompare k s).1.pins = s.pins ∧ (commandCompare k s).1.freeIndex = s.freeIndex ∧
    (commandCompare k s).1.pending = s.pending := by
  unfold commandCompare
  repeat' split
  all_goals simp

@[simp] theorem commandMarkBased_frame (k : SlotIx) (s : State) :
    (commandMarkBased k s).1.plan = s.plan ∧ (commandMarkBased k s).1.seq = s.seq ∧
    (commandMarkBased k s).1.opt = s.opt ∧ (commandMarkBased k s).1.intake = s.intake ∧
    (commandMarkBased k s).1.accum = s.accum ∧ (commandMarkBased k s).1.trace = s.trace ∧
    (commandMarkBased k s).1.findings = s.findings ∧ (commandMarkBased k s).1.mirror = s.mirror ∧
    (commandMarkBased k s).1.path = s.path ∧ (commandMarkBased k s).1.mem = s.mem ∧
    (commandMarkBased k s).1.pins = s.pins ∧ (commandMarkBased k s).1.freeIndex = s.freeIndex ∧
    (commandMarkBased k s).1.pending = s.pending := by
  unfold commandMarkBased
  split <;> simp

@[simp] theorem runCommand_frame (c : CommandName) (operand : BitVec 8) (s : State) :
    (runCommand c operand s).1.plan.lastCommand = s.plan.lastCommand ∧
    (runCommand c operand s).1.plan.pendingCopy = s.plan.pendingCopy ∧
    (runCommand c operand s).1.opt.strobes = s.opt.strobes ∧
    (runCommand c operand s).1.intake.accepted = s.intake.accepted ∧
    (runCommand c operand s).1.findings.post = s.findings.post ∧
    (runCommand c operand s).1.findings.taken = s.findings.taken ∧
    (runCommand c operand s).1.path.pass = s.path.pass ∧
    (runCommand c operand s).1.path.passCount = s.path.passCount ∧
    (runCommand c operand s).1.path.waiting = s.path.waiting ∧ (runCommand c operand s).1.mem = s.mem ∧
    (runCommand c operand s).1.pins = s.pins ∧ (runCommand c operand s).1.pending = s.pending := by
  unfold runCommand withSlot
  repeat' split
  all_goals simp

@[simp] theorem takeNamed_frame
    (c : CommandName) (operand : BitVec 8) (code : BitVec 8) (tag : BitVec 8) (s : State) :
    (takeNamed c operand code tag s).plan.pendingCopy = s.plan.pendingCopy ∧
    (takeNamed c operand code tag s).findings.post = s.findings.post ∧
    (takeNamed c operand code tag s).findings.taken = s.findings.taken ∧
    (takeNamed c operand code tag s).path.pass = s.path.pass ∧
    (takeNamed c operand code tag s).path.passCount = s.path.passCount ∧
    (takeNamed c operand code tag s).path.waiting = s.path.waiting ∧ (takeNamed c operand code tag s).mem = s.mem ∧
    (takeNamed c operand code tag s).pins = s.pins ∧ (takeNamed c operand code tag s).pending = s.pending := by
  unfold takeNamed
  dsimp only
  split <;> simp

@[simp] theorem takeFullCommand_frame (data : Word) (s : State) :
    (takeFullCommand data s).plan.pendingCopy = s.plan.pendingCopy ∧
    (takeFullCommand data s).findings.post = s.findings.post ∧
    (takeFullCommand data s).findings.taken = s.findings.taken ∧ (takeFullCommand data s).path.pass = s.path.pass ∧
    (takeFullCommand data s).path.passCount = s.path.passCount ∧
    (takeFullCommand data s).path.waiting = s.path.waiting ∧ (takeFullCommand data s).mem = s.mem ∧
    (takeFullCommand data s).pins = s.pins ∧ (takeFullCommand data s).pending = s.pending := by
  unfold takeFullCommand
  split <;> simp

@[simp] theorem takeCommand_frame (be : Enables) (data : Word) (s : State) :
    (takeCommand be data s).plan.pendingCopy = s.plan.pendingCopy ∧
    (takeCommand be data s).findings.post = s.findings.post ∧
    (takeCommand be data s).findings.taken = s.findings.taken ∧ (takeCommand be data s).path.pass = s.path.pass ∧
    (takeCommand be data s).path.passCount = s.path.passCount ∧
    (takeCommand be data s).path.waiting = s.path.waiting ∧ (takeCommand be data s).mem = s.mem ∧
    (takeCommand be data s).pins = s.pins ∧ (takeCommand be data s).pending = s.pending := by
  unfold takeCommand
  split <;> simp

/-! ### Machine/MemoryPath.lean -/

@[simp] theorem passAccess_frame (a : Access) (s : State) :
    (passAccess a s).plan = s.plan ∧ (passAccess a s).seq = s.seq ∧ (passAccess a s).opt = s.opt ∧
    (passAccess a s).intake = s.intake ∧ (passAccess a s).accum = s.accum ∧ (passAccess a s).trace = s.trace ∧
    (passAccess a s).verdict = s.verdict ∧ (passAccess a s).findings = s.findings ∧
    (passAccess a s).mirror = s.mirror ∧ (passAccess a s).path.passCount = s.path.passCount ∧
    (passAccess a s).path.waiting = s.path.waiting ∧ (passAccess a s).path.guards = s.path.guards ∧
    (passAccess a s).path.strayAccess = s.path.strayAccess ∧ (passAccess a s).path.guardHit = s.path.guardHit ∧
    (passAccess a s).path.readData = s.path.readData ∧ (passAccess a s).mem = s.mem ∧
    (passAccess a s).pins = s.pins ∧ (passAccess a s).freeIndex = s.freeIndex ∧
    (passAccess a s).pending = s.pending := by
  simp [passAccess]

@[simp] theorem answerRead_frame (w : Word) (s : State) :
    (answerRead w s).plan = s.plan ∧ (answerRead w s).seq = s.seq ∧ (answerRead w s).opt = s.opt ∧
    (answerRead w s).intake = s.intake ∧ (answerRead w s).accum = s.accum ∧ (answerRead w s).trace = s.trace ∧
    (answerRead w s).verdict = s.verdict ∧ (answerRead w s).findings = s.findings ∧
    (answerRead w s).mirror = s.mirror ∧ (answerRead w s).path.pass = s.path.pass ∧
    (answerRead w s).path.passCount = s.path.passCount ∧ (answerRead w s).path.waiting = s.path.waiting ∧
    (answerRead w s).path.guards = s.path.guards ∧ (answerRead w s).path.strayAccess = s.path.strayAccess ∧
    (answerRead w s).path.guardHit = s.path.guardHit ∧ (answerRead w s).mem = s.mem ∧
    (answerRead w s).pins = s.pins ∧ (answerRead w s).freeIndex = s.freeIndex ∧
    (answerRead w s).pending = s.pending := by
  simp [answerRead]

@[simp] theorem hitGuard_frame (s : State) :
    (hitGuard s).plan = s.plan ∧ (hitGuard s).seq = s.seq ∧ (hitGuard s).opt = s.opt ∧
    (hitGuard s).intake = s.intake ∧ (hitGuard s).accum = s.accum ∧ (hitGuard s).trace = s.trace ∧
    (hitGuard s).verdict = s.verdict ∧ (hitGuard s).findings = s.findings ∧ (hitGuard s).mirror = s.mirror ∧
    (hitGuard s).path.pass = s.path.pass ∧ (hitGuard s).path.passCount = s.path.passCount ∧
    (hitGuard s).path.waiting = s.path.waiting ∧ (hitGuard s).path.guards = s.path.guards ∧
    (hitGuard s).path.strayAccess = s.path.strayAccess ∧ (hitGuard s).path.readData = s.path.readData ∧
    (hitGuard s).mem = s.mem ∧ (hitGuard s).pins = s.pins ∧ (hitGuard s).freeIndex = s.freeIndex ∧
    (hitGuard s).pending = s.pending := by
  simp [hitGuard]

@[simp] theorem takeStray_frame (a : Access) (s : State) :
    (takeStray a s).plan = s.plan ∧ (takeStray a s).seq = s.seq ∧ (takeStray a s).opt = s.opt ∧
    (takeStray a s).intake = s.intake ∧ (takeStray a s).accum = s.accum ∧ (takeStray a s).trace = s.trace ∧
    (takeStray a s).verdict = s.verdict ∧ (takeStray a s).findings = s.findings ∧
    (takeStray a s).mirror = s.mirror ∧ (takeStray a s).path.pass = s.path.pass ∧
    (takeStray a s).path.passCount = s.path.passCount ∧ (takeStray a s).path.waiting = s.path.waiting ∧
    (takeStray a s).path.guards = s.path.guards ∧ (takeStray a s).path.guardHit = s.path.guardHit ∧
    (takeStray a s).mem = s.mem ∧ (takeStray a s).pins = s.pins ∧ (takeStray a s).freeIndex = s.freeIndex ∧
    (takeStray a s).pending = s.pending := by
  unfold takeStray
  split <;> simp

@[simp] theorem testAfterHeader_frame (applied : Bool) (s : State) :
    (testAfterHeader applied s).plan.lastCommand = s.plan.lastCommand ∧
    (testAfterHeader applied s).plan.pendingCopy = s.plan.pendingCopy ∧
    (testAfterHeader applied s).opt.dutyTimer = s.opt.dutyTimer ∧
    (testAfterHeader applied s).intake.stray = s.intake.stray ∧
    (testAfterHeader applied s).findings.post = s.findings.post ∧
    (testAfterHeader applied s).findings.taken = s.findings.taken ∧
    (testAfterHeader applied s).findings.sweepEndNotice = s.findings.sweepEndNotice ∧
    (testAfterHeader applied s).path.pass = s.path.pass ∧
    (testAfterHeader applied s).path.passCount = s.path.passCount ∧
    (testAfterHeader applied s).path.waiting = s.path.waiting ∧
    (testAfterHeader applied s).path.strayAccess = s.path.strayAccess ∧
    (testAfterHeader applied s).path.guardHit = s.path.guardHit ∧ (testAfterHeader applied s).mem = s.mem ∧
    (testAfterHeader applied s).pins = s.pins ∧ (testAfterHeader applied s).freeIndex = s.freeIndex ∧
    (testAfterHeader applied s).pending = s.pending := by
  unfold testAfterHeader
  split <;> simp

@[simp] theorem takePlanWrite_frame (a : Access) (s : State) :
    (takePlanWrite a s).plan.lastCommand = s.plan.lastCommand ∧
    (takePlanWrite a s).opt.dutyTimer = s.opt.dutyTimer ∧ (takePlanWrite a s).intake.stray = s.intake.stray ∧
    (takePlanWrite a s).findings.post = s.findings.post ∧ (takePlanWrite a s).findings.taken = s.findings.taken ∧
    (takePlanWrite a s).findings.sweepEndNotice = s.findings.sweepEndNotice ∧
    (takePlanWrite a s).path.pass = s.path.pass ∧ (takePlanWrite a s).path.passCount = s.path.passCount ∧
    (takePlanWrite a s).path.waiting = s.path.waiting ∧ (takePlanWrite a s).path.strayAccess = s.path.strayAccess ∧
    (takePlanWrite a s).path.guardHit = s.path.guardHit ∧ (takePlanWrite a s).mem = s.mem ∧
    (takePlanWrite a s).pins = s.pins ∧ (takePlanWrite a s).freeIndex = s.freeIndex ∧
    (takePlanWrite a s).pending = s.pending := by
  simp [takePlanWrite]

@[simp] theorem takeTakenIndex_frame (a : Access) (s : State) :
    (takeTakenIndex a s).plan.lastCommand = s.plan.lastCommand ∧
    (takeTakenIndex a s).plan.pendingCopy = s.plan.pendingCopy ∧ (takeTakenIndex a s).seq = s.seq ∧
    (takeTakenIndex a s).opt = s.opt ∧ (takeTakenIndex a s).intake = s.intake ∧
    (takeTakenIndex a s).accum = s.accum ∧ (takeTakenIndex a s).trace = s.trace ∧
    (takeTakenIndex a s).verdict = s.verdict ∧ (takeTakenIndex a s).findings.post = s.findings.post ∧
    (takeTakenIndex a s).findings.queue = s.findings.queue ∧
    (takeTakenIndex a s).findings.sweepEndNotice = s.findings.sweepEndNotice ∧ (takeTakenIndex a s).path = s.path ∧
    (takeTakenIndex a s).mem = s.mem ∧ (takeTakenIndex a s).pins = s.pins ∧
    (takeTakenIndex a s).freeIndex = s.freeIndex ∧ (takeTakenIndex a s).pending = s.pending := by
  unfold takeTakenIndex
  dsimp only
  split <;> simp

@[simp] theorem takeMemoryWrite_frame (a : Access) (s : State) :
    (takeMemoryWrite a s).plan = s.plan ∧ (takeMemoryWrite a s).seq = s.seq ∧ (takeMemoryWrite a s).opt = s.opt ∧
    (takeMemoryWrite a s).intake = s.intake ∧ (takeMemoryWrite a s).accum = s.accum ∧
    (takeMemoryWrite a s).trace = s.trace ∧ (takeMemoryWrite a s).verdict = s.verdict ∧
    (takeMemoryWrite a s).findings = s.findings ∧ (takeMemoryWrite a s).mirror = s.mirror ∧
    (takeMemoryWrite a s).path.passCount = s.path.passCount ∧ (takeMemoryWrite a s).path.waiting = s.path.waiting ∧
    (takeMemoryWrite a s).path.guards = s.path.guards ∧
    (takeMemoryWrite a s).path.strayAccess = s.path.strayAccess ∧
    (takeMemoryWrite a s).path.readData = s.path.readData ∧ (takeMemoryWrite a s).mem = s.mem ∧
    (takeMemoryWrite a s).pins = s.pins ∧ (takeMemoryWrite a s).freeIndex = s.freeIndex ∧
    (takeMemoryWrite a s).pending = s.pending := by
  unfold takeMemoryWrite
  split <;> simp

@[simp] theorem takeShotWrite_frame (a : Access) (s : State) :
    (takeShotWrite a s).plan.lastCommand = s.plan.lastCommand ∧
    (takeShotWrite a s).plan.pendingCopy = s.plan.pendingCopy ∧
    (takeShotWrite a s).opt.dutyTimer = s.opt.dutyTimer ∧ (takeShotWrite a s).findings.post = s.findings.post ∧
    (takeShotWrite a s).findings.taken = s.findings.taken ∧
    (takeShotWrite a s).findings.sweepEndNotice = s.findings.sweepEndNotice ∧
    (takeShotWrite a s).path.pass = s.path.pass ∧ (takeShotWrite a s).path.passCount = s.path.passCount ∧
    (takeShotWrite a s).path.waiting = s.path.waiting ∧ (takeShotWrite a s).path.strayAccess = s.path.strayAccess ∧
    (takeShotWrite a s).path.guardHit = s.path.guardHit ∧ (takeShotWrite a s).mem = s.mem ∧
    (takeShotWrite a s).pins = s.pins ∧ (takeShotWrite a s).pending = s.pending := by
  simp [takeShotWrite]

@[simp] theorem takeWrite_frame (a : Access) (s : State) :
    (takeWrite a s).findings.post = s.findings.post ∧ (takeWrite a s).path.passCount = s.path.passCount ∧
    (takeWrite a s).path.waiting = s.path.waiting ∧ (takeWrite a s).mem = s.mem ∧ (takeWrite a s).pins = s.pins ∧
    (takeWrite a s).pending = s.pending := by
  unfold takeWrite
  split <;> simp

@[simp] theorem takeRead_frame (a : Access) (s : State) :
    (takeRead a s).plan.lastCommand = s.plan.lastCommand ∧ (takeRead a s).plan.pendingCopy = s.plan.pendingCopy ∧
    (takeRead a s).seq.state = s.seq.state ∧ (takeRead a s).seq.sweepNumber = s.seq.sweepNumber ∧
    (takeRead a s).seq.acq = s.seq.acq ∧ (takeRead a s).seq.outcomes = s.seq.outcomes ∧ (takeRead a s).opt = s.opt ∧
    (takeRead a s).intake = s.intake ∧ (takeRead a s).findings.post = s.findings.post ∧
    (takeRead a s).findings.taken = s.findings.taken ∧
    (takeRead a s).findings.sweepEndNotice = s.findings.sweepEndNotice ∧
    (takeRead a s).path.passCount = s.path.passCount ∧ (takeRead a s).path.waiting = s.path.waiting ∧
    (takeRead a s).path.guardHit = s.path.guardHit ∧ (takeRead a s).mem = s.mem ∧ (takeRead a s).pins = s.pins ∧
    (takeRead a s).freeIndex = s.freeIndex ∧ (takeRead a s).pending = s.pending := by
  unfold takeRead
  split <;> simp

@[simp] theorem takeAccess_frame (a : Access) (s : State) :
    (takeAccess a s).findings.post = s.findings.post ∧ (takeAccess a s).path.passCount = s.path.passCount ∧
    (takeAccess a s).path.waiting = s.path.waiting ∧ (takeAccess a s).mem = s.mem ∧ (takeAccess a s).pins = s.pins ∧
    (takeAccess a s).pending = s.pending := by
  unfold takeAccess
  split <;> simp

@[simp] theorem serveBus_frame (a : List Access) (s : State) :
    (serveBus a s).findings.post = s.findings.post ∧ (serveBus a s).path.passCount = s.path.passCount ∧
    (serveBus a s).mem = s.mem ∧ (serveBus a s).pins = s.pins ∧ (serveBus a s).pending = s.pending := by
  induction a generalizing s with
  | _ =>
    unfold serveBus
    repeat' split
    all_goals simp_all

@[simp] theorem present_frame (a : Access) (s : State) :
    (present a s).findings.post = s.findings.post ∧ (present a s).path.passCount = s.path.passCount ∧
    (present a s).mem = s.mem ∧ (present a s).pins = s.pins ∧ (present a s).pending = s.pending := by
  simp [present]

@[simp] theorem passGranted_frame (s : State) :
    (passGranted s).plan.lastCommand = s.plan.lastCommand ∧ (passGranted s).plan.pendingCopy = s.plan.pendingCopy ∧
    (passGranted s).seq.state = s.seq.state ∧ (passGranted s).seq.sweepNumber = s.seq.sweepNumber ∧
    (passGranted s).seq.acq = s.seq.acq ∧ (passGranted s).seq.outcomes = s.seq.outcomes ∧
    (passGranted s).opt = s.opt ∧ (passGranted s).intake = s.intake ∧
    (passGranted s).findings.post = s.findings.post ∧ (passGranted s).findings.taken = s.findings.taken ∧
    (passGranted s).findings.sweepEndNotice = s.findings.sweepEndNotice ∧
    (passGranted s).path.passCount = s.path.passCount ∧ (passGranted s).path.waiting = s.path.waiting ∧
    (passGranted s).path.strayAccess = s.path.strayAccess ∧ (passGranted s).path.guardHit = s.path.guardHit ∧
    (passGranted s).pins = s.pins ∧ (passGranted s).freeIndex = s.freeIndex ∧
    (passGranted s).pending = s.pending := by
  unfold passGranted
  split
  · dsimp only
    repeat' split
    all_goals simp
  · simp

@[simp] theorem finishRecord_frame (r : QRecord) (rest : List QRecord) (s : State) :
    (finishRecord r rest s).plan = s.plan ∧ (finishRecord r rest s).seq = s.seq ∧
    (finishRecord r rest s).opt = s.opt ∧ (finishRecord r rest s).intake = s.intake ∧
    (finishRecord r rest s).accum = s.accum ∧ (finishRecord r rest s).trace = s.trace ∧
    (finishRecord r rest s).findings.taken = s.findings.taken ∧ (finishRecord r rest s).path = s.path ∧
    (finishRecord r rest s).mem = s.mem ∧ (finishRecord r rest s).pins = s.pins ∧
    (finishRecord r rest s).freeIndex = s.freeIndex ∧ (finishRecord r rest s).pending = s.pending := by
  simp [finishRecord]

@[simp] theorem postRecordWord_frame (r : QRecord) (rest : List QRecord) (s : State) :
    (postRecordWord r rest s).plan.lastCommand = s.plan.lastCommand ∧
    (postRecordWord r rest s).plan.pendingCopy = s.plan.pendingCopy ∧ (postRecordWord r rest s).seq = s.seq ∧
    (postRecordWord r rest s).opt = s.opt ∧ (postRecordWord r rest s).intake = s.intake ∧
    (postRecordWord r rest s).accum.lock = s.accum.lock ∧ (postRecordWord r rest s).accum.queue = s.accum.queue ∧
    (postRecordWord r rest s).accum.add = s.accum.add ∧ (postRecordWord r rest s).trace.view = s.trace.view ∧
    (postRecordWord r rest s).trace.summary = s.trace.summary ∧
    (postRecordWord r rest s).trace.capture = s.trace.capture ∧
    (postRecordWord r rest s).trace.squeezed = s.trace.squeezed ∧
    (postRecordWord r rest s).findings.taken = s.findings.taken ∧
    (postRecordWord r rest s).path.pass = s.path.pass ∧
    (postRecordWord r rest s).path.passCount = s.path.passCount ∧
    (postRecordWord r rest s).path.waiting = s.path.waiting ∧
    (postRecordWord r rest s).path.strayAccess = s.path.strayAccess ∧
    (postRecordWord r rest s).path.guardHit = s.path.guardHit ∧
    (postRecordWord r rest s).path.readData = s.path.readData ∧ (postRecordWord r rest s).pins = s.pins ∧
    (postRecordWord r rest s).freeIndex = s.freeIndex ∧ (postRecordWord r rest s).pending = s.pending := by
  unfold postRecordWord
  dsimp only
  split <;> simp

@[simp] theorem postResetWord_frame (s : State) :
    (postResetWord s).plan.lastCommand = s.plan.lastCommand ∧
    (postResetWord s).plan.pendingCopy = s.plan.pendingCopy ∧ (postResetWord s).seq = s.seq ∧
    (postResetWord s).opt = s.opt ∧ (postResetWord s).intake = s.intake ∧
    (postResetWord s).accum.lock = s.accum.lock ∧ (postResetWord s).accum.queue = s.accum.queue ∧
    (postResetWord s).accum.add = s.accum.add ∧ (postResetWord s).trace.view = s.trace.view ∧
    (postResetWord s).trace.summary = s.trace.summary ∧ (postResetWord s).trace.capture = s.trace.capture ∧
    (postResetWord s).trace.squeezed = s.trace.squeezed ∧ (postResetWord s).findings.post = s.findings.post ∧
    (postResetWord s).findings.taken = s.findings.taken ∧ (postResetWord s).findings.queue = s.findings.queue ∧
    (postResetWord s).findings.sweepEndNotice = s.findings.sweepEndNotice ∧
    (postResetWord s).path.pass = s.path.pass ∧ (postResetWord s).path.passCount = s.path.passCount ∧
    (postResetWord s).path.waiting = s.path.waiting ∧ (postResetWord s).path.strayAccess = s.path.strayAccess ∧
    (postResetWord s).path.guardHit = s.path.guardHit ∧ (postResetWord s).path.readData = s.path.readData ∧
    (postResetWord s).pins = s.pins ∧ (postResetWord s).freeIndex = s.freeIndex ∧
    (postResetWord s).pending = s.pending := by
  simp [postResetWord]

@[simp] theorem postStatusWord_frame (i : Fin 224) (s : State) :
    (postStatusWord i s).plan.lastCommand = s.plan.lastCommand ∧
    (postStatusWord i s).plan.pendingCopy = s.plan.pendingCopy ∧ (postStatusWord i s).seq = s.seq ∧
    (postStatusWord i s).opt = s.opt ∧ (postStatusWord i s).intake = s.intake ∧
    (postStatusWord i s).accum.lock = s.accum.lock ∧ (postStatusWord i s).accum.queue = s.accum.queue ∧
    (postStatusWord i s).accum.add = s.accum.add ∧ (postStatusWord i s).trace.view = s.trace.view ∧
    (postStatusWord i s).trace.summary = s.trace.summary ∧ (postStatusWord i s).trace.capture = s.trace.capture ∧
    (postStatusWord i s).trace.squeezed = s.trace.squeezed ∧ (postStatusWord i s).findings.post = s.findings.post ∧
    (postStatusWord i s).findings.taken = s.findings.taken ∧
    (postStatusWord i s).findings.queue = s.findings.queue ∧
    (postStatusWord i s).findings.sweepEndNotice = s.findings.sweepEndNotice ∧
    (postStatusWord i s).path.pass = s.path.pass ∧ (postStatusWord i s).path.passCount = s.path.passCount ∧
    (postStatusWord i s).path.waiting = s.path.waiting ∧
    (postStatusWord i s).path.strayAccess = s.path.strayAccess ∧
    (postStatusWord i s).path.guardHit = s.path.guardHit ∧ (postStatusWord i s).path.readData = s.path.readData ∧
    (postStatusWord i s).pins = s.pins ∧ (postStatusWord i s).freeIndex = s.freeIndex ∧
    (postStatusWord i s).pending = s.pending := by
  simp [postStatusWord]

@[simp] theorem postWord_frame (s : State) :
    (postWord s).plan.lastCommand = s.plan.lastCommand ∧ (postWord s).plan.pendingCopy = s.plan.pendingCopy ∧
    (postWord s).seq = s.seq ∧ (postWord s).opt = s.opt ∧ (postWord s).intake = s.intake ∧
    (postWord s).accum.lock = s.accum.lock ∧ (postWord s).accum.queue = s.accum.queue ∧
    (postWord s).accum.add = s.accum.add ∧ (postWord s).trace.view = s.trace.view ∧
    (postWord s).trace.summary = s.trace.summary ∧ (postWord s).trace.capture = s.trace.capture ∧
    (postWord s).trace.squeezed = s.trace.squeezed ∧ (postWord s).findings.taken = s.findings.taken ∧
    (postWord s).path.pass = s.path.pass ∧ (postWord s).path.passCount = s.path.passCount ∧
    (postWord s).path.waiting = s.path.waiting ∧ (postWord s).path.strayAccess = s.path.strayAccess ∧
    (postWord s).path.guardHit = s.path.guardHit ∧ (postWord s).path.readData = s.path.readData ∧
    (postWord s).pins = s.pins ∧ (postWord s).freeIndex = s.freeIndex ∧ (postWord s).pending = s.pending := by
  unfold postWord
  repeat' split
  all_goals simp

@[simp] theorem postGranted_frame (s : State) :
    (postGranted s).plan.lastCommand = s.plan.lastCommand ∧ (postGranted s).plan.pendingCopy = s.plan.pendingCopy ∧
    (postGranted s).seq.state = s.seq.state ∧ (postGranted s).seq.sweepNumber = s.seq.sweepNumber ∧
    (postGranted s).seq.acq = s.seq.acq ∧ (postGranted s).seq.outcomes = s.seq.outcomes ∧
    (postGranted s).opt = s.opt ∧ (postGranted s).intake = s.intake ∧
    (postGranted s).findings.taken = s.findings.taken ∧ (postGranted s).path.pass = s.path.pass ∧
    (postGranted s).path.passCount = s.path.passCount ∧ (postGranted s).path.waiting = s.path.waiting ∧
    (postGranted s).path.strayAccess = s.path.strayAccess ∧ (postGranted s).path.guardHit = s.path.guardHit ∧
    (postGranted s).pins = s.pins ∧ (postGranted s).freeIndex = s.freeIndex ∧
    (postGranted s).pending = s.pending := by
  simp [postGranted]

@[simp] theorem accumGranted_frame (s : State) :
    (accumGranted s).plan.lastCommand = s.plan.lastCommand ∧
    (accumGranted s).plan.pendingCopy = s.plan.pendingCopy ∧ (accumGranted s).opt.dutyTimer = s.opt.dutyTimer ∧
    (accumGranted s).intake.stray = s.intake.stray ∧ (accumGranted s).findings.post = s.findings.post ∧
    (accumGranted s).findings.taken = s.findings.taken ∧
    (accumGranted s).findings.sweepEndNotice = s.findings.sweepEndNotice ∧
    (accumGranted s).path.pass = s.path.pass ∧ (accumGranted s).path.passCount = s.path.passCount ∧
    (accumGranted s).path.waiting = s.path.waiting ∧ (accumGranted s).path.strayAccess = s.path.strayAccess ∧
    (accumGranted s).path.guardHit = s.path.guardHit ∧ (accumGranted s).pins = s.pins ∧
    (accumGranted s).pending = s.pending := by
  unfold accumGranted
  split <;> simp

@[simp] theorem traceGranted_frame (s : State) :
    (traceGranted s).plan.lastCommand = s.plan.lastCommand ∧
    (traceGranted s).plan.pendingCopy = s.plan.pendingCopy ∧ (traceGranted s).opt.dutyTimer = s.opt.dutyTimer ∧
    (traceGranted s).intake.stray = s.intake.stray ∧ (traceGranted s).findings.post = s.findings.post ∧
    (traceGranted s).findings.taken = s.findings.taken ∧
    (traceGranted s).findings.sweepEndNotice = s.findings.sweepEndNotice ∧
    (traceGranted s).path.pass = s.path.pass ∧ (traceGranted s).path.passCount = s.path.passCount ∧
    (traceGranted s).path.waiting = s.path.waiting ∧ (traceGranted s).path.strayAccess = s.path.strayAccess ∧
    (traceGranted s).path.guardHit = s.path.guardHit ∧ (traceGranted s).pins = s.pins ∧
    (traceGranted s).freeIndex = s.freeIndex ∧ (traceGranted s).pending = s.pending := by
  unfold traceGranted
  split <;> simp

@[simp] theorem viewFetchGranted_frame (s : State) :
    (viewFetchGranted s).plan.lastCommand = s.plan.lastCommand ∧
    (viewFetchGranted s).plan.pendingCopy = s.plan.pendingCopy ∧ (viewFetchGranted s).seq.state = s.seq.state ∧
    (viewFetchGranted s).seq.sweepNumber = s.seq.sweepNumber ∧ (viewFetchGranted s).seq.acq = s.seq.acq ∧
    (viewFetchGranted s).seq.outcomes = s.seq.outcomes ∧ (viewFetchGranted s).opt = s.opt ∧
    (viewFetchGranted s).intake = s.intake ∧ (viewFetchGranted s).findings.post = s.findings.post ∧
    (viewFetchGranted s).findings.taken = s.findings.taken ∧
    (viewFetchGranted s).findings.sweepEndNotice = s.findings.sweepEndNotice ∧
    (viewFetchGranted s).path.pass = s.path.pass ∧ (viewFetchGranted s).path.passCount = s.path.passCount ∧
    (viewFetchGranted s).path.waiting = s.path.waiting ∧
    (viewFetchGranted s).path.strayAccess = s.path.strayAccess ∧
    (viewFetchGranted s).path.guardHit = s.path.guardHit ∧ (viewFetchGranted s).mem = s.mem ∧
    (viewFetchGranted s).pins = s.pins ∧ (viewFetchGranted s).freeIndex = s.freeIndex ∧
    (viewFetchGranted s).pending = s.pending := by
  simp [viewFetchGranted]

/-! ### Machine/Lines.lean -/

@[simp] theorem gateAsserted_frame (s : State) :
    (gateAsserted s).plan.lastCommand = s.plan.lastCommand ∧
    (gateAsserted s).plan.pendingCopy = s.plan.pendingCopy ∧ (gateAsserted s).opt.dutyTimer = s.opt.dutyTimer ∧
    (gateAsserted s).intake.stray = s.intake.stray ∧ (gateAsserted s).findings.post = s.findings.post ∧
    (gateAsserted s).findings.taken = s.findings.taken ∧
    (gateAsserted s).findings.sweepEndNotice = s.findings.sweepEndNotice ∧
    (gateAsserted s).path.pass = s.path.pass ∧ (gateAsserted s).path.passCount = s.path.passCount ∧
    (gateAsserted s).path.waiting = s.path.waiting ∧ (gateAsserted s).path.strayAccess = s.path.strayAccess ∧
    (gateAsserted s).path.guardHit = s.path.guardHit ∧ (gateAsserted s).mem = s.mem ∧
    (gateAsserted s).pins = s.pins ∧ (gateAsserted s).freeIndex = s.freeIndex ∧
    (gateAsserted s).pending = s.pending := by
  simp [gateAsserted]

@[simp] theorem gateDeasserted_frame (s : State) :
    (gateDeasserted s).plan.lastCommand = s.plan.lastCommand ∧
    (gateDeasserted s).plan.pendingCopy = s.plan.pendingCopy ∧ (gateDeasserted s).opt.dutyTimer = s.opt.dutyTimer ∧
    (gateDeasserted s).intake.stray = s.intake.stray ∧ (gateDeasserted s).findings.post = s.findings.post ∧
    (gateDeasserted s).findings.taken = s.findings.taken ∧
    (gateDeasserted s).findings.sweepEndNotice = s.findings.sweepEndNotice ∧
    (gateDeasserted s).path.pass = s.path.pass ∧ (gateDeasserted s).path.passCount = s.path.passCount ∧
    (gateDeasserted s).path.waiting = s.path.waiting ∧ (gateDeasserted s).path.strayAccess = s.path.strayAccess ∧
    (gateDeasserted s).path.guardHit = s.path.guardHit ∧ (gateDeasserted s).mem = s.mem ∧
    (gateDeasserted s).pins = s.pins ∧ (gateDeasserted s).pending = s.pending := by
  unfold gateDeasserted
  split <;> simp

@[simp] theorem setGate_frame (v : Bool) (s : State) :
    (setGate v s).plan = s.plan ∧ (setGate v s).seq = s.seq ∧ (setGate v s).opt = s.opt ∧
    (setGate v s).intake = s.intake ∧ (setGate v s).accum = s.accum ∧ (setGate v s).trace = s.trace ∧
    (setGate v s).verdict = s.verdict ∧ (setGate v s).findings = s.findings ∧ (setGate v s).mirror = s.mirror ∧
    (setGate v s).path = s.path ∧ (setGate v s).mem = s.mem ∧ (setGate v s).freeIndex = s.freeIndex ∧
    (setGate v s).pending = s.pending := by
  simp [setGate]

@[simp] theorem guardAsserted_frame (s : State) :
    (guardAsserted s).plan.lastCommand = s.plan.lastCommand ∧
    (guardAsserted s).plan.pendingCopy = s.plan.pendingCopy ∧ (guardAsserted s).opt.dutyTimer = s.opt.dutyTimer ∧
    (guardAsserted s).intake.stray = s.intake.stray ∧ (guardAsserted s).findings.post = s.findings.post ∧
    (guardAsserted s).findings.taken = s.findings.taken ∧
    (guardAsserted s).findings.sweepEndNotice = s.findings.sweepEndNotice ∧
    (guardAsserted s).path.pass = s.path.pass ∧ (guardAsserted s).path.passCount = s.path.passCount ∧
    (guardAsserted s).path.waiting = s.path.waiting ∧ (guardAsserted s).path.strayAccess = s.path.strayAccess ∧
    (guardAsserted s).path.guardHit = s.path.guardHit ∧ (guardAsserted s).mem = s.mem ∧
    (guardAsserted s).pins = s.pins ∧ (guardAsserted s).pending = s.pending := by
  unfold guardAsserted
  split <;> simp

@[simp] theorem setLiveLight_frame (v : Bool) (s : State) :
    (setLiveLight v s).plan = s.plan ∧ (setLiveLight v s).seq = s.seq ∧ (setLiveLight v s).opt = s.opt ∧
    (setLiveLight v s).intake = s.intake ∧ (setLiveLight v s).accum = s.accum ∧ (setLiveLight v s).trace = s.trace ∧
    (setLiveLight v s).verdict = s.verdict ∧ (setLiveLight v s).findings = s.findings ∧
    (setLiveLight v s).mirror = s.mirror ∧ (setLiveLight v s).path = s.path ∧ (setLiveLight v s).mem = s.mem ∧
    (setLiveLight v s).freeIndex = s.freeIndex ∧ (setLiveLight v s).pending = s.pending := by
  simp [setLiveLight]

@[simp] theorem edgeTaken_frame (sense : EdgeSense) (s : State) :
    (edgeTaken sense s).plan.lastCommand = s.plan.lastCommand ∧
    (edgeTaken sense s).plan.pendingCopy = s.plan.pendingCopy ∧
    (edgeTaken sense s).opt.dutyTimer = s.opt.dutyTimer ∧ (edgeTaken sense s).intake.stray = s.intake.stray ∧
    (edgeTaken sense s).findings.post = s.findings.post ∧ (edgeTaken sense s).findings.taken = s.findings.taken ∧
    (edgeTaken sense s).findings.sweepEndNotice = s.findings.sweepEndNotice ∧
    (edgeTaken sense s).path.pass = s.path.pass ∧ (edgeTaken sense s).path.passCount = s.path.passCount ∧
    (edgeTaken sense s).path.waiting = s.path.waiting ∧ (edgeTaken sense s).path.strayAccess = s.path.strayAccess ∧
    (edgeTaken sense s).path.guardHit = s.path.guardHit ∧ (edgeTaken sense s).mem = s.mem ∧
    (edgeTaken sense s).pins = s.pins ∧ (edgeTaken sense s).freeIndex = s.freeIndex ∧
    (edgeTaken sense s).pending = s.pending := by
  unfold edgeTaken
  split <;> simp

@[simp] theorem setTrigger_frame (sense : EdgeSense) (s : State) :
    (setTrigger sense s).plan = s.plan ∧ (setTrigger sense s).seq = s.seq ∧ (setTrigger sense s).opt = s.opt ∧
    (setTrigger sense s).intake = s.intake ∧ (setTrigger sense s).accum = s.accum ∧
    (setTrigger sense s).trace = s.trace ∧ (setTrigger sense s).verdict = s.verdict ∧
    (setTrigger sense s).findings = s.findings ∧ (setTrigger sense s).mirror = s.mirror ∧
    (setTrigger sense s).path = s.path ∧ (setTrigger sense s).mem = s.mem ∧
    (setTrigger sense s).freeIndex = s.freeIndex ∧ (setTrigger sense s).pending = s.pending := by
  simp [setTrigger]

@[simp] theorem hardReset_frame (s : State) :
    (hardReset s).mem = s.mem ∧ (hardReset s).freeIndex = s.freeIndex ∧ (hardReset s).pending = s.pending := by
  simp [hardReset]

/-! ### Machine/Timers.lean -/

@[simp] theorem settleExpired_frame (s : State) :
    (settleExpired s).plan.lastCommand = s.plan.lastCommand ∧
    (settleExpired s).plan.pendingCopy = s.plan.pendingCopy ∧ (settleExpired s).opt.dutyTimer = s.opt.dutyTimer ∧
    (settleExpired s).intake.stray = s.intake.stray ∧ (settleExpired s).findings.post = s.findings.post ∧
    (settleExpired s).findings.taken = s.findings.taken ∧
    (settleExpired s).findings.sweepEndNotice = s.findings.sweepEndNotice ∧
    (settleExpired s).path.pass = s.path.pass ∧ (settleExpired s).path.passCount = s.path.passCount ∧
    (settleExpired s).path.waiting = s.path.waiting ∧ (settleExpired s).path.strayAccess = s.path.strayAccess ∧
    (settleExpired s).path.guardHit = s.path.guardHit ∧ (settleExpired s).mem = s.mem ∧
    (settleExpired s).pins = s.pins ∧ (settleExpired s).freeIndex = s.freeIndex ∧
    (settleExpired s).pending = s.pending := by
  unfold settleExpired
  split <;> simp

@[simp] theorem warmUpExpired_frame (s : State) :
    (warmUpExpired s).plan.lastCommand = s.plan.lastCommand ∧
    (warmUpExpired s).plan.pendingCopy = s.plan.pendingCopy ∧ (warmUpExpired s).opt.dutyTimer = s.opt.dutyTimer ∧
    (warmUpExpired s).intake.stray = s.intake.stray ∧ (warmUpExpired s).findings.post = s.findings.post ∧
    (warmUpExpired s).findings.taken = s.findings.taken ∧
    (warmUpExpired s).findings.sweepEndNotice = s.findings.sweepEndNotice ∧
    (warmUpExpired s).path.pass = s.path.pass ∧ (warmUpExpired s).path.passCount = s.path.passCount ∧
    (warmUpExpired s).path.waiting = s.path.waiting ∧ (warmUpExpired s).path.strayAccess = s.path.strayAccess ∧
    (warmUpExpired s).path.guardHit = s.path.guardHit ∧ (warmUpExpired s).mem = s.mem ∧
    (warmUpExpired s).pins = s.pins ∧ (warmUpExpired s).freeIndex = s.freeIndex ∧
    (warmUpExpired s).pending = s.pending := by
  unfold warmUpExpired
  split <;> simp

@[simp] theorem warmHoldExpired_frame (s : State) :
    (warmHoldExpired s).plan = s.plan ∧ (warmHoldExpired s).seq = s.seq ∧
    (warmHoldExpired s).opt.dutyTimer = s.opt.dutyTimer ∧ (warmHoldExpired s).opt.dutyCount = s.opt.dutyCount ∧
    (warmHoldExpired s).opt.port = s.opt.port ∧ (warmHoldExpired s).opt.strobes = s.opt.strobes ∧
    (warmHoldExpired s).intake = s.intake ∧ (warmHoldExpired s).accum = s.accum ∧
    (warmHoldExpired s).trace = s.trace ∧ (warmHoldExpired s).verdict = s.verdict ∧
    (warmHoldExpired s).findings = s.findings ∧ (warmHoldExpired s).mirror = s.mirror ∧
    (warmHoldExpired s).path = s.path ∧ (warmHoldExpired s).mem = s.mem ∧ (warmHoldExpired s).pins = s.pins ∧
    (warmHoldExpired s).freeIndex = s.freeIndex ∧ (warmHoldExpired s).pending = s.pending := by
  unfold warmHoldExpired
  split <;> simp

@[simp] theorem endRest_frame (s : State) :
    (endRest s).plan = s.plan ∧ (endRest s).seq.state = s.seq.state ∧
    (endRest s).seq.sweepNumber = s.seq.sweepNumber ∧ (endRest s).seq.comp = s.seq.comp ∧
    (endRest s).seq.outcomes = s.seq.outcomes ∧ (endRest s).opt = s.opt ∧ (endRest s).intake = s.intake ∧
    (endRest s).accum = s.accum ∧ (endRest s).trace = s.trace ∧ (endRest s).verdict = s.verdict ∧
    (endRest s).findings = s.findings ∧ (endRest s).path = s.path ∧ (endRest s).mem = s.mem ∧
    (endRest s).pins = s.pins ∧ (endRest s).freeIndex = s.freeIndex ∧ (endRest s).pending = s.pending := by
  unfold endRest
  repeat' split
  all_goals simp

@[simp] theorem dutyEnded_frame (s : State) :
    (dutyEnded s).plan = s.plan ∧ (dutyEnded s).seq.state = s.seq.state ∧
    (dutyEnded s).seq.sweepNumber = s.seq.sweepNumber ∧ (dutyEnded s).seq.comp = s.seq.comp ∧
    (dutyEnded s).seq.outcomes = s.seq.outcomes ∧ (dutyEnded s).opt.warm = s.opt.warm ∧
    (dutyEnded s).opt.warmUpTimer = s.opt.warmUpTimer ∧ (dutyEnded s).opt.warmHoldTimer = s.opt.warmHoldTimer ∧
    (dutyEnded s).opt.port = s.opt.port ∧ (dutyEnded s).intake.stray = s.intake.stray ∧
    (dutyEnded s).intake.accepted = s.intake.accepted ∧ (dutyEnded s).accum = s.accum ∧
    (dutyEnded s).trace = s.trace ∧ (dutyEnded s).verdict = s.verdict ∧ (dutyEnded s).findings = s.findings ∧
    (dutyEnded s).path = s.path ∧ (dutyEnded s).mem = s.mem ∧ (dutyEnded s).pins = s.pins ∧
    (dutyEnded s).freeIndex = s.freeIndex ∧ (dutyEnded s).pending = s.pending := by
  unfold dutyEnded
  split <;> simp

@[simp] theorem spacingExpired_frame (s : State) :
    (spacingExpired s).plan = s.plan ∧ (spacingExpired s).seq.state = s.seq.state ∧
    (spacingExpired s).seq.sweepNumber = s.seq.sweepNumber ∧ (spacingExpired s).seq.comp = s.seq.comp ∧
    (spacingExpired s).seq.outcomes = s.seq.outcomes ∧ (spacingExpired s).opt.warm = s.opt.warm ∧
    (spacingExpired s).opt.warmUpTimer = s.opt.warmUpTimer ∧
    (spacingExpired s).opt.warmHoldTimer = s.opt.warmHoldTimer ∧
    (spacingExpired s).opt.dutyTimer = s.opt.dutyTimer ∧ (spacingExpired s).opt.port = s.opt.port ∧
    (spacingExpired s).intake.stray = s.intake.stray ∧ (spacingExpired s).intake.accepted = s.intake.accepted ∧
    (spacingExpired s).accum = s.accum ∧ (spacingExpired s).trace = s.trace ∧
    (spacingExpired s).verdict = s.verdict ∧ (spacingExpired s).findings = s.findings ∧
    (spacingExpired s).path = s.path ∧ (spacingExpired s).mem = s.mem ∧ (spacingExpired s).pins = s.pins ∧
    (spacingExpired s).freeIndex = s.freeIndex ∧ (spacingExpired s).pending = s.pending := by
  unfold spacingExpired
  split <;> simp

@[simp] theorem deadlineTaken_frame (sequence : BitVec 16) (s : State) :
    (deadlineTaken sequence s).plan.lastCommand = s.plan.lastCommand ∧
    (deadlineTaken sequence s).plan.pendingCopy = s.plan.pendingCopy ∧
    (deadlineTaken sequence s).opt.dutyTimer = s.opt.dutyTimer ∧
    (deadlineTaken sequence s).intake.stray = s.intake.stray ∧
    (deadlineTaken sequence s).findings.post = s.findings.post ∧
    (deadlineTaken sequence s).findings.taken = s.findings.taken ∧
    (deadlineTaken sequence s).findings.sweepEndNotice = s.findings.sweepEndNotice ∧
    (deadlineTaken sequence s).path.pass = s.path.pass ∧
    (deadlineTaken sequence s).path.passCount = s.path.passCount ∧
    (deadlineTaken sequence s).path.waiting = s.path.waiting ∧
    (deadlineTaken sequence s).path.strayAccess = s.path.strayAccess ∧
    (deadlineTaken sequence s).path.guardHit = s.path.guardHit ∧ (deadlineTaken sequence s).mem = s.mem ∧
    (deadlineTaken sequence s).pins = s.pins ∧ (deadlineTaken sequence s).pending = s.pending := by
  simp [deadlineTaken]

@[simp] theorem resultTaken_frame (s : State) :
    (resultTaken s).plan.lastCommand = s.plan.lastCommand ∧ (resultTaken s).plan.pendingCopy = s.plan.pendingCopy ∧
    (resultTaken s).opt.dutyTimer = s.opt.dutyTimer ∧ (resultTaken s).intake.stray = s.intake.stray ∧
    (resultTaken s).findings.post = s.findings.post ∧ (resultTaken s).findings.taken = s.findings.taken ∧
    (resultTaken s).findings.sweepEndNotice = s.findings.sweepEndNotice ∧ (resultTaken s).path.pass = s.path.pass ∧
    (resultTaken s).path.passCount = s.path.passCount ∧ (resultTaken s).path.waiting = s.path.waiting ∧
    (resultTaken s).path.strayAccess = s.path.strayAccess ∧ (resultTaken s).path.guardHit = s.path.guardHit ∧
    (resultTaken s).mem = s.mem ∧ (resultTaken s).pins = s.pins ∧ (resultTaken s).freeIndex = s.freeIndex ∧
    (resultTaken s).pending = s.pending := by
  simp [resultTaken]

end Sys2Proof.Machine
end

