-- ==== Sys2Proof/Laws/Settle.lean ====
section
/-! SUPPORT. Accesses and events taken by themselves: what `present` and `happen` come to where nothing waits, and where
the cascades that follow a command leave the state alone. -/

namespace Sys2Proof.Machine

/-! ### Cascades with nothing to do -/

/-- The Trace Engine with nothing to do without a grant leaves the state alone. -/
theorem runTrace_idle {s : State} (h : TraceIdle s) : runTrace s = s := by
  unfold runTrace pumpTrace
  split
  · rename_i b hb
    simp [h.1 b hb]
  · rename_i hb hv
    exact absurd hv (h.2 hb _ _)
  · rfl

/-- With no view read held, the background operation goes on. -/
theorem runningOperation_none {s : State} (h : s.trace.view = none) : runningOperation s = s.trace.bg := by
  simp [runningOperation, h]

/-- With no view read held, a background operation that needs a word leaves the Trace Engine idle. -/
theorem idle_of {s : State} (hv : s.trace.view = none) (h : TraceSettled s) : TraceIdle s := by
  refine ⟨fun b hb => h b ?_, fun _ a p => by simp [hv]⟩
  rwa [runningOperation_none hv] at hb

/-- A held read that waits for no point leaves the Trace Engine idle. -/
theorem idle_view {s : State} {v : ViewRead} (hv : s.trace.view = some v) (h : ∀ p, v.stage ≠ .waitPoint p) :
    TraceIdle s := by
  refine ⟨fun b hb => ?_, fun _ a p e => ?_⟩
  · simp [runningOperation, hv, h] at hb
  · rw [hv] at e
    cases e
    exact h p rfl

/-- Lanes that call for nothing stay as they are. -/
theorem lanes_idle {s : State} (h : laneCalls s = false) (n : Nat) : lanes n s = s := by
  cases n <;> simp [lanes, h]

/-- A sweep with no move, offer or end due goes no further. -/
theorem sweepOn_idle {s : State} (hl : laneCalls s = false) (ho : sweepOver s = false) (n : Nat) : sweepOn n s = s := by
  cases n <;> simp [sweepOn, lanes_idle hl, ho]

/-- Outside SWEEPING no lane calls. -/
theorem laneCalls_outside {s : State} (h : s.seq.state ≠ .sweeping) : laneCalls s = false := by simp [laneCalls, h]

/-- Outside SWEEPING no sweep ends. -/
theorem sweepOver_outside {s : State} (h : s.seq.state ≠ .sweeping) : sweepOver s = false := by simp [sweepOver, h]

/-- A settled state goes no further. -/
theorem advance_settled {s : State} (h : Settled s) : advance s = s := by
  obtain ⟨hl, ho, ht⟩ := h
  simp [advance, sweepOn_idle hl ho, runTrace_idle ht]

/-- Outside SWEEPING, with the Trace Engine idle, nothing goes further. -/
theorem advance_outside {s : State} (h : s.seq.state ≠ .sweeping) (ht : TraceIdle s) : advance s = s :=
  advance_settled ⟨laneCalls_outside h, sweepOver_outside h, ht⟩

/-! ### Accesses and events by themselves -/

/-- A state with no access waiting, written out. -/
theorem waiting_nil {s : State} (h : s.path.waiting = []) : { s with path.waiting := [] } = s := by rw [← h]

/-- An access that finds the bus ready is taken, and nothing else is. -/
theorem present_ready {s : State} (h : BusReady s) (a : Access) : present a s = takeAccess a s := by
  have hb : busFree s = true := by simp [busFree, h.noPass, h.noView, h.running]
  have hw : (takeAccess a s).path.waiting = [] := by simp [h.noWaiting]
  simp only [present, h.noWaiting, List.nil_append, serveBus, hb, if_true]
  exact waiting_nil hw

/-- An event that finds nothing waiting acts, and its changes are reported. -/
theorem happen_ready {s : State} (h : EventReady s) {f : State → State} (hf : (f s).path.waiting = s.path.waiting) :
    happen f s = report (f s) := by
  have hw : (report (f s)).path.waiting = [] := by simp [hf, h.noWaiting]
  simp only [happen, h.running, Bool.false_eq_true, if_false, hw, serveBus]
  exact waiting_nil hw

/-- What an event and the accesses it frees keep: whatever the event keeps, of what every access keeps. -/
theorem happen_keeps {α : Type} (p : State → α) {f : State → State} {s : State} (hf : p (f s) = p s)
    (hr : ∀ u, p (report u) = p u) (hb : ∀ w u, p (serveBus w u) = p u) : p (happen f s) = p s := by
  unfold happen
  split
  · rfl
  · rw [hb, hr, hf]

/-- An event that leaves memory alone leaves it alone with the accesses it frees. -/
theorem happen_mem {f : State → State} {s : State} (h : (f s).mem = s.mem) : (happen f s).mem = s.mem :=
  happen_keeps (fun u => u.mem) h (by simp) (by simp)

/-- An event that leaves the input lines alone. -/
theorem happen_pins {f : State → State} {s : State} (h : (f s).pins = s.pins) : (happen f s).pins = s.pins :=
  happen_keeps (fun u => u.pins) h (by simp) (by simp)

/-- An event that leaves the commands waiting alone. -/
theorem happen_pending {f : State → State} {s : State} (h : (f s).pending = s.pending) :
    (happen f s).pending = s.pending :=
  happen_keeps (fun u => u.pending) h (by simp) (by simp)

/-- An event that leaves the consecutive-PASS count alone. -/
theorem happen_passCount {f : State → State} {s : State} (h : (f s).path.passCount = s.path.passCount) :
    (happen f s).path.passCount = s.path.passCount :=
  happen_keeps (fun u => u.path.passCount) h (by simp) (by simp)

/-- A grant either changes nothing or acts with the count the decision gives (R173, R174). -/
theorem granted_cases (r : Requester) (f : State → State) (s : State) :
    granted r f s = s ∨
      ∃ count, decision s = some (r, count) ∧ granted r f s = f { s with path.passCount := count } := by
  unfold granted
  split
  · rename_i d count hd
    split
    · rename_i h
      exact .inr ⟨count, h ▸ hd, rfl⟩
    · exact .inl rfl
  · exact .inl rfl

/-- A grant the decision gives acts with its count. -/
theorem granted_of_decision {r : Requester} {s : State} {count : Nat} (h : decision s = some (r, count))
    (f : State → State) : granted r f s = f { s with path.passCount := count } := by
  simp [granted, h]

/-- A grant the decision does not give changes nothing (R174). -/
theorem granted_of_not {r : Requester} {s : State} (h : ∀ count, decision s ≠ some (r, count)) (f : State → State) :
    granted r f s = s := by
  obtain hg | ⟨count, hd, -⟩ := granted_cases r f s
  · exact hg
  · exact absurd hd (h count)

/-- While reset is asserted an event changes nothing. -/
theorem happen_inReset {s : State} (h : s.pins.resetAsserted = true) (f : State → State) : happen f s = s := by
  simp [happen, h]

/-! ### Bytes of a command word, and the class of its address -/

/-- Byte 0 of a word put together from bytes. -/
theorem byteOf_append_zero (b0 b1 b2 b3 : BitVec 8) : byteOf (b3 ++ b2 ++ b1 ++ b0 : BitVec 32) 0 = b0 := by
  unfold byteOf
  refine BitVec.eq_of_getLsbD_eq fun i hi => ?_
  simp only [BitVec.getLsbD_extractLsb', BitVec.getLsbD_append]
  simp [hi]

/-- Byte 1 of a word put together from bytes. -/
theorem byteOf_append_one (b0 b1 b2 b3 : BitVec 8) : byteOf (b3 ++ b2 ++ b1 ++ b0 : BitVec 32) 1 = b1 := by
  unfold byteOf
  refine BitVec.eq_of_getLsbD_eq fun i hi => ?_
  simp only [BitVec.getLsbD_extractLsb', BitVec.getLsbD_append, hi]
  simp [show ¬ (8 + i < 8) by omega, show 8 + i - 8 = i by omega, hi]

/-- Byte 3 of a word put together from bytes. -/
theorem byteOf_append_three (b0 b1 b2 b3 : BitVec 8) : byteOf (b3 ++ b2 ++ b1 ++ b0 : BitVec 32) 3 = b3 := by
  unfold byteOf
  refine BitVec.eq_of_getLsbD_eq fun i hi => ?_
  simp only [BitVec.getLsbD_extractLsb', BitVec.getLsbD_append, hi]
  simp [show ¬ (24 + i < 8) by omega, show ¬ (24 + i - 8 < 8) by omega, show ¬ (24 + i - 8 - 8 < 8) by omega,
    show 24 + i - 8 - 8 - 8 = i by omega]

/-- The word address of a write at a page offset. -/
theorem pageWrite_word (offset : BitVec 12) (be : Enables) (data : Word) :
    (pageWrite offset be data).word = 0xFFF000 + offset.toNat / 4 * 4 := by
  have := offset.isLt
  simp [pageWrite, Access.word, BitVec.toNat_setWidth]
  omega

/-- A command write is of the command word's class. -/
theorem classOf_commandWrite (c : CommandName) (operand spare tag : BitVec 8) :
    classOf (commandWrite c operand spare tag).word = .commandWord := by
  rw [commandWrite, pageWrite_word]
  decide

/-- The code of a command decodes to it. -/
@[simp] theorem decodeCode_code (c : CommandName) : decodeCode c.code = some c := by cases c <;> decide

/-- A command write is taken as its command, with its operand and tag. -/
theorem takeCommand_commandWrite (c : CommandName) (operand spare tag : BitVec 8) (s : State) :
    takeCommand (commandWrite c operand spare tag).be (commandWrite c operand spare tag).data s =
      takeNamed c operand c.code tag s := by
  simp [takeCommand, takeFullCommand, commandWrite, pageWrite, CommandName.word, byteOf_append_zero,
    byteOf_append_one, byteOf_append_three]

/-- A command taken on a ready bus. -/
theorem present_command {s : State} (h : BusReady s) (c : CommandName) (operand spare tag : BitVec 8) :
    present (commandWrite c operand spare tag) s =
      report (passAccess (commandWrite c operand spare tag) (takeNamed c operand c.code tag s)) := by
  have hw : (commandWrite c operand spare tag).write = true := rfl
  simp [present_ready h, takeAccess, takeWrite, hw, classOf_commandWrite, takeCommand_commandWrite]

/-! ### Reports taken together -/

/-- No status word shows the mirror. -/
theorem statusWord_mirror (s : State) (m : MirrorState) (i : Nat) :
    statusWord { s with mirror := m } i = statusWord s i := rfl

/-- A report, field by field. -/
theorem report_mk (s : State) :
    report s = { s with mirror := ⟨Vector.ofFn fun i : Fin 224 => statusWord s i.val,
      Vector.ofFn fun i : Fin 224 => s.mirror.dirty[i] || s.mirror.image[i] != statusWord s i.val⟩ } := by
  unfold report
  with_reducible rfl

/-- A report changes no status word. -/
@[simp] theorem statusWord_report (s : State) (i : Nat) : statusWord (report s) i = statusWord s i := by
  rw [report_mk]
  exact statusWord_mirror s _ i

/-- After a report the image shows the contents (R156). -/
theorem mirrored_report (s : State) : Mirrored (report s) := by simp [Mirrored]

/-- Two states alike but for their mirrors report alike where their reported mirrors agree. -/
theorem report_eq (s : State) (m : MirrorState) (h : (report { s with mirror := m }).mirror = (report s).mirror) :
    report { s with mirror := m } = report s := by
  unfold report at h ⊢
  simp only at h ⊢
  rw [h]

/-- A second report finds nothing changed (R156). -/
@[simp] theorem report_report (s : State) : report (report s) = report s := by
  conv_lhs => rw [report_mk s]
  refine report_eq _ _ ?_
  rw [report_mk, report_mk]
  simp only [statusWord_mirror]
  refine congrArg (MirrorState.mk _) (Vector.ext fun i hi => ?_)
  simp

/-- Passing an access on and recording an outcome change no status word but that of the last command. -/
theorem statusWord_recordOutcome (a : Access) (code tag : BitVec 8) (o : CmdOutcome) (s : State) (i : Fin 224)
    (hi : i ≠ 3) : statusWord (passAccess a (recordOutcome code tag o s)) i.val = statusWord s i.val := by
  have h3 : i.val ≠ 3 := fun e => hi (Fin.ext e)
  unfold statusWord
  split <;> [split; rfl]
  · unfold generalWord
    split <;> first | rfl | (exfalso; omega)
  · rfl

/-- Passing an access on and recording an outcome, from a state whose mirror differs. -/
theorem recordOutcome_mirror (a : Access) (code tag : BitVec 8) (o : CmdOutcome) (s : State) (m : MirrorState) :
    passAccess a (recordOutcome code tag o { s with mirror := m }) =
      { passAccess a (recordOutcome code tag o s) with mirror := ⟨m.image, m.dirty.set 3 true⟩ } := rfl

/-- A report before the outcome is recorded is taken up by the report after it. -/
theorem report_recordOutcome_report (a : Access) (code tag : BitVec 8) (o : CmdOutcome) (s : State) :
    report (passAccess a (recordOutcome code tag o (report s))) = report (passAccess a (recordOutcome code tag o s)) := by
  rw [report_mk s, recordOutcome_mirror]
  refine report_eq _ _ ?_
  rw [report_mk, report_mk]
  simp only [statusWord_mirror]
  refine congrArg (MirrorState.mk _) (Vector.ext fun i hi => ?_)
  simp only [Vector.getElem_ofFn]
  by_cases h3 : i = 3
  · subst h3
    simp [passAccess, recordOutcome, markDirty]
  · have hw := statusWord_recordOutcome a code tag o s ⟨i, hi⟩ (by simpa [Fin.ext_iff] using h3)
    simp only at hw
    simp [passAccess, recordOutcome, markDirty, Ne.symm h3] at hw ⊢
    rw [hw]
    simp

/-! ### Answers of a command -/

/-- A refused command leaves the outcome alone (R20). -/
theorem present_refused {s : State} (h : BusReady s) {c : CommandName} {operand : BitVec 8} (spare tag : BitVec 8)
    {o : CmdOutcome} (hr : runCommand c operand s = (s, o)) (ho : o ≠ .accepted) :
    present (commandWrite c operand spare tag) s = answered c operand spare tag o s := by
  simp [present_command h, takeNamed, hr, ho, answered]

/-- An accepted command after which nothing more happens leaves what it does and its outcome. -/
theorem present_accepted {s : State} (h : BusReady s) {c : CommandName} {operand : BitVec 8} (spare tag : BitVec 8)
    {u : State} (hr : runCommand c operand s = (u, .accepted)) (hu : Settled (report u)) :
    present (commandWrite c operand spare tag) s = answered c operand spare tag .accepted u := by
  simp only [present_command h, takeNamed, hr, if_true, advance_settled hu, report_recordOutcome_report, answered]

end Sys2Proof.Machine
end

