-- ==== Sys2Proof/Laws/Kept.lean ====
section
/-! SUPPORT. What has to be shown of a property for every step to keep it: once, from the shape of the commands. -/

namespace Sys2Proof.Machine

/-- A property that what a command is made of keeps: the commands waiting, the levels of the lines, the report, an
access taken, each event, and the reset. -/
structure Kept (P : State → Prop) : Prop where
  pending : ∀ s c, P s → P { s with pending := c }
  waiting : ∀ s w, P s → P { s with path.waiting := w }
  count : ∀ s n, n ≤ 8 → P s → P { s with path.passCount := n }
  pins : ∀ s p, P s → P { s with pins := p }
  reset : ∀ s, P s → P (hardReset s)
  report : ∀ s, P s → P (report s)
  access : ∀ a s, P s → P (takeAccess a s)
  pass : ∀ s, P s → P (Machine.report (passGranted s))
  accum : ∀ s, P s → P (Machine.report (accumGranted s))
  trace : ∀ s, P s → P (Machine.report (traceGranted s))
  viewFetch : ∀ s, P s → P (Machine.report (viewFetchGranted s))
  post : ∀ s, P s → P (Machine.report (postGranted s))
  gateOn : ∀ s, P s → P (Machine.report (gateAsserted s))
  gateOff : ∀ s, P s → P (Machine.report (gateDeasserted s))
  guard : ∀ s, P s → P (Machine.report (guardAsserted s))
  fire : ∀ s, P s → P (Machine.report (testFire s))
  edge : ∀ e s, P s → P (Machine.report (edgeTaken e s))
  settle : ∀ s, P s → P (Machine.report (settleExpired s))
  warmUp : ∀ s, P s → P (Machine.report (warmUpExpired s))
  warmHold : ∀ s, P s → P (Machine.report (warmHoldExpired s))
  duty : ∀ s, P s → P (Machine.report (dutyEnded s))
  spacing : ∀ s, P s → P (Machine.report (spacingExpired s))
  deadline : ∀ q s, P s → P (Machine.report (deadlineTaken q s))
  result : ∀ s, P s → P (Machine.report (resultTaken s))

namespace Kept

variable {P : State → Prop}

/-- Accesses served in order keep the property. -/
theorem serveBus (h : Kept P) (w : List Access) {s : State} (hs : P s) : P (serveBus w s) := by
  induction w generalizing s with
  | nil => exact h.waiting _ _ hs
  | cons a rest ih =>
    unfold Machine.serveBus
    split
    · exact ih (h.access a s hs)
    · exact h.waiting _ _ hs

/-- An access presented keeps the property. -/
theorem present (h : Kept P) (a : Access) {s : State} (hs : P s) : P (present a s) := h.serveBus _ hs

/-- An event that keeps the property keeps it with the accesses it frees. -/
theorem happen (h : Kept P) {f : State → State} (hf : ∀ s, P s → P (Machine.report (f s))) {s : State} (hs : P s) : P (happen f s) := by
  unfold Machine.happen
  split
  · exact hs
  · exact h.serveBus _ (hf s hs)

/-- The count an arbiter's decision leaves is at most 8 (R173). -/
theorem decision_count {s : State} {r : Requester} {n : Nat} (hd : decision s = some (r, n)) : n ≤ 8 := by
  unfold decision at hd
  split at hd
  · cases hd
    omega
  · split at hd <;> cases hd <;> omega
  · cases hd
    omega
  · cases hd

/-- A grant keeps the property. -/
theorem granted (h : Kept P) {r : Requester} {f : State → State} (hf : ∀ s, P s → P (Machine.report (f s)))
    {s : State} (hs : P s) : P (Machine.report (granted r f s)) := by
  obtain hg | ⟨n, hd, hg⟩ := granted_cases r f s
  · rw [hg]
    exact h.report s hs
  · rw [hg]
    exact hf _ (h.count s n (decision_count hd) hs)

/-- Every command keeps the property. -/
theorem exec (h : Kept P) (c : Instr) {s t : State} (hs : P s) (ht : exec c s = .next t) : P t := by
  cases c <;> injection ht with ht <;> subst ht
  case passGrant => exact h.happen (fun _ => h.granted h.pass) hs
  case accumGrant => exact h.happen (fun _ => h.granted h.accum) hs
  case traceGrant => exact h.happen (fun _ => h.granted h.trace) hs
  case viewFetchGrant => exact h.happen (fun _ => h.granted h.viewFetch) hs
  case postGrant => exact h.happen (fun _ => h.granted h.post) hs
  case quietHoursGateAsserted => split <;> [exact hs; exact h.happen h.gateOn (h.pins _ _ hs)]
  case quietHoursGateDeasserted => split <;> [exact h.happen h.gateOff (h.pins _ _ hs); exact hs]
  case liveLightGuardAsserted => split <;> [exact hs; exact h.happen h.guard (h.pins _ _ hs)]
  case liveLightGuardDeasserted => split <;> [exact h.happen h.fire (h.pins _ _ hs); exact hs]
  case triggerEdge e => exact h.happen (h.edge e) (h.pins _ _ hs)
  case hardReset => exact h.reset s hs
  case resetDeasserted => split <;> [exact h.happen h.report (h.pins _ _ hs); exact hs]
  case settleTimerExpiry => exact h.happen h.settle hs
  case warmUpExpiry => exact h.happen h.warmUp hs
  case warmHoldExpiry => exact h.happen h.warmHold hs
  case dutyPeriodEnd => exact h.happen h.duty hs
  case shotSpacingExpiry => exact h.happen h.spacing hs
  case shotDeadlineExpiry q => exact h.happen (h.deadline q) hs
  case takeResult => exact h.happen h.result hs
  all_goals exact h.present _ hs

/-- Every step keeps the property. -/
theorem step (h : Kept P) {s t : State} (hs : P s) (ht : step s = .next t) : P t := by
  unfold Machine.step at ht
  split at ht
  · injection ht with ht
    exact ht ▸ hs
  · exact h.exec _ (h.pending _ _ hs) ht

end Kept

end Sys2Proof.Machine
end

