-- ==== Sys2Proof/Laws/Commands.lean ====
section
/-! SUPPORT. What the commands of the command word, the events and the plan's applications come to when nothing else is
to be done: the equations a statement about one command starts from. -/

namespace Sys2Proof.Machine

/-- The row of a command presents its write (R18). -/
theorem exec_command (c : CommandName) (operand spare tag : BitVec 8) (s : State) :
    exec (commandInstr c operand spare tag) s = .next (present (commandWrite c operand spare tag) s) := by
  cases c <;> rfl

/-- A state that agrees in what can move by itself is settled as well. -/
theorem settled_of {s t : State} (h : Settled s) (h1 : t.seq = s.seq) (h2 : t.trace.bg = s.trace.bg)
    (h3 : t.trace.view = s.trace.view) : Settled t := by
  unfold Settled laneCalls sweepOver TraceIdle runningOperation at *
  simpa [h1, h2, h3] using h

/-- The report leaves a settled state settled. -/
theorem settled_report {u : State} (h : Settled u) : Settled (report u) := by
  simpa [Settled, laneCalls, sweepOver, TraceIdle, runningOperation] using h

/-- Outside SWEEPING, with no view read held, a state whose background operation needs a word is settled. -/
theorem settled_outside {u : State} (h : u.seq.state ≠ .sweeping) (hv : u.trace.view = none) (ht : TraceSettled u) :
    Settled u := by
  exact ⟨laneCalls_outside h, sweepOver_outside h, idle_of hv ht⟩

/-- An accepted command whose owner leaves the part settled (R19, R20). -/
theorem exec_accepted {s u : State} (h : BusReady s) (c : CommandName) (operand spare tag : BitVec 8)
    (hr : runCommand c operand s = (u, .accepted)) (hu : Settled (report u)) :
    exec (commandInstr c operand spare tag) s = .next (answered c operand spare tag .accepted u) := by
  rw [exec_command, present_accepted h spare tag hr hu]

/-- An accepted command, with what its owner's work then sets going. -/
theorem exec_accepted_advance {s u : State} (h : BusReady s) (c : CommandName) (operand spare tag : BitVec 8)
    (hr : runCommand c operand s = (u, .accepted)) :
    exec (commandInstr c operand spare tag) s = .next (report (passAccess (commandWrite c operand spare tag)
      (recordOutcome c.code tag .accepted (advance (report u))))) := by
  rw [exec_command, present_command h, takeNamed, hr]
  simp

/-- Nothing applies where the plan is settled (R8, R10). -/
theorem applyDirty_settled {u : State} (h : PlanSettled u) : applyDirty u = u := by
  unfold applyDirty
  obtain h | ⟨h1, h2, h3⟩ := h
  · simp [h]
  · split
    · rfl
    · have hl : ∀ l : List SlotIx, applyRecords l u = u := by
        intro l
        induction l with
        | nil => rfl
        | cons k r ih => simp [applyRecords, applyRecordIfDue, h3, ih]
      simp [applyZonesIfDue, applyHeaderIfDue, h1, h2, hl]

/-- Nothing applies outside SWEEPING where the plan is settled (R10). -/
theorem applyOutside_settled {u : State} (h : PlanSettled u) : applyOutside u = u := by
  unfold applyOutside
  split
  · rfl
  · exact applyDirty_settled h

/-- An event acted on by itself comes to its own effect and the report. -/
theorem happen_eq {s u : State} {f : State → State} (h : EventReady s) (hf : f s = u)
    (hw : u.path.waiting = s.path.waiting) : happen f s = report u := by
  rw [happen_ready h (by rw [hf, hw]), hf]

/-- The firing conditions are tested for a slot in FIRING only (R56). -/
theorem testFire_none {s : State} (h : ∀ l, s.seq.acq = some l → l.phase ≠ .firing) : testFire s = s := by
  unfold testFire
  split <;> simp_all

/-- The end of SETTLING is tested for a slot in SETTLING only (R51). -/
theorem settlingTest_none {s : State} (h : ∀ l, s.seq.acq = some l → l.phase ≠ .settling) : settlingTest s = s := by
  unfold settlingTest
  split <;> simp_all

end Sys2Proof.Machine
end

