-- ==== Sys2Proof/Laws/Memory.lean ====
section
/-! SUPPORT. Trace memory: what a byte or word write does to a byte read, and the canonical form every write keeps. -/

namespace Sys2Proof.Machine

/-! ### The canonical form -/

/-- A list in canonical form above a bound is in canonical form above a lower one. -/
theorem memWfFrom_weaken {lo : Nat} {m : List Host.Cell} (h : memWfFrom (some lo) m = true) {lo' : Option Nat}
    (hle : ∀ l, lo' = some l → l ≤ lo) : memWfFrom lo' m = true := by
  cases m with
  | nil => rfl
  | cons c rest =>
    obtain ⟨a, b⟩ := c
    simp only [memWfFrom, Bool.and_eq_true, decide_eq_true_eq] at h ⊢
    refine ⟨⟨?_, h.1.2⟩, h.2⟩
    cases lo' with
    | none => rfl
    | some l => simpa using Nat.lt_of_le_of_lt (hle l rfl) h.1.1

/-- The tail of a list in canonical form is in canonical form above its head's address. -/
theorem memWfFrom_cons {lo : Option Nat} {a : Nat} {b : Byte} {rest : List Host.Cell} :
    memWfFrom lo ((a, b) :: rest) = true ↔
      (∀ l, lo = some l → l < a) ∧ b ≠ 0#8 ∧ memWfFrom (some a) rest = true := by
  cases lo <;> simp [memWfFrom, and_assoc]

/-- A byte write keeps the canonical form above any bound below the address written. -/
theorem memWfFrom_writeByte {lo : Option Nat} {m : List Host.Cell} {x : Nat} {v : Byte}
    (h : memWfFrom lo m = true) (hx : ∀ l, lo = some l → l < x) : memWfFrom lo (writeByte m x v) = true := by
  induction m generalizing lo with
  | nil =>
    unfold writeByte
    split
    · rfl
    · exact memWfFrom_cons.2 ⟨hx, ‹_›, rfl⟩
  | cons c rest ih =>
    obtain ⟨a, b⟩ := c
    obtain ⟨hlo, hb, hrest⟩ := memWfFrom_cons.1 h
    unfold writeByte
    split
    · split
      · exact h
      · exact memWfFrom_cons.2 ⟨hx, ‹_›, memWfFrom_cons.2 ⟨by rintro l ⟨rfl⟩; assumption, hb, hrest⟩⟩
    · split
      · rename_i heq
        subst heq
        split
        · exact memWfFrom_weaken hrest fun l hl => Nat.le_of_lt (hlo l hl)
        · exact memWfFrom_cons.2 ⟨hlo, ‹_›, hrest⟩
      · exact memWfFrom_cons.2 ⟨hlo, hb, ih hrest (by rintro l ⟨rfl⟩; omega)⟩

/-- A byte write keeps the canonical form. -/
theorem wf_writeByte {m : List Host.Cell} (h : Memory.wf m = true) (x : Nat) (v : Byte) :
    Memory.wf (writeByte m x v) = true :=
  memWfFrom_writeByte h (by simp)

/-- An enabled byte of a word write keeps the canonical form. -/
theorem wf_writeEnabled {m : List Host.Cell} (h : Memory.wf m = true) (a : Nat) (be : Enables) (w : Word) (i : Nat) :
    Memory.wf (writeEnabled m a be w i) = true := by
  unfold writeEnabled
  split
  · exact wf_writeByte h _ _
  · exact h

/-- A word write keeps the canonical form. -/
theorem wf_writeWord {m : List Host.Cell} (h : Memory.wf m = true) (a : Nat) (be : Enables) (w : Word) :
    Memory.wf (writeWord m a be w) = true := by
  unfold writeWord
  split
  · exact wf_writeEnabled (wf_writeEnabled (wf_writeEnabled (wf_writeEnabled h _ _ _ _) _ _ _ _) _ _ _ _) _ _ _ _
  · exact h

/-! ### Reading what was written -/

/-- Every byte below the first address of a list in canonical form reads 0. -/
theorem readByte_below {lo : Nat} {m : List Host.Cell} (h : memWfFrom (some lo) m = true) {y : Nat} (hy : y ≤ lo) :
    readByte m y = 0#8 := by
  induction m generalizing lo with
  | nil => rfl
  | cons c rest ih =>
    obtain ⟨a, b⟩ := c
    obtain ⟨hlo, -, hrest⟩ := memWfFrom_cons.1 h
    have hlt : lo < a := hlo lo rfl
    have hne : ¬ y = a := by omega
    simp only [readByte, hne, if_false]
    exact ih hrest (by omega)

/-- The byte written reads as written, and every other byte as before. -/
theorem readByte_writeByte {lo : Option Nat} {m : List Host.Cell} (h : memWfFrom lo m = true) (x : Nat) (v : Byte)
    (y : Nat) : readByte (writeByte m x v) y = if y = x then v else readByte m y := by
  induction m generalizing lo with
  | nil =>
    unfold writeByte
    split <;> simp_all [readByte]
  | cons c rest ih =>
    obtain ⟨a, b⟩ := c
    obtain ⟨-, -, hrest⟩ := memWfFrom_cons.1 h
    unfold writeByte
    split
    · rename_i hlt
      have hbelow : y = x → readByte ((a, b) :: rest) y = 0#8 := by
        intro hy
        have hne : ¬ y = a := by omega
        simp only [readByte, hne, if_false]
        exact readByte_below hrest (by omega)
      split
      · rename_i hv
        split
        · rename_i hy
          rw [hbelow hy, hv]
        · rfl
      · simp [readByte]
    · split
      · rename_i heq
        subst heq
        split
        · rename_i hv
          split
          · rename_i hy
            rw [hv, hy, readByte_below hrest (Nat.le_refl _)]
          · rename_i hy
            simp [readByte, hy]
        · by_cases hy : y = x <;> simp [readByte, hy]
      · rename_i hlt hne
        by_cases hya : y = a
        · simp [readByte, hya, show ¬ a = x from fun h => hne h.symm]
        · simp only [readByte, hya, if_false]
          exact ih hrest

/-- A byte of a word write reads as written if it is enabled, and every other byte as before. -/
theorem readByte_writeEnabled {m : List Host.Cell} (h : Memory.wf m = true) (a : Nat) (be : Enables) (w : Word)
    (i y : Nat) : readByte (writeEnabled m a be w i) y =
      if y = a + i ∧ be.getLsbD i = true then byteOf w i else readByte m y := by
  unfold writeEnabled
  split
  · rw [readByte_writeByte h]
    simp_all
  · simp_all

/-- The bytes of a word write below the end of memory: the four bytes of the word, where enabled, and no other. -/
theorem readByte_writeWord {m : List Host.Cell} (h : Memory.wf m = true) {a : Nat} (ha : a < memoryEnd) (be : Enables)
    (w : Word) (y : Nat) : readByte (writeWord m a be w) y =
      if a ≤ y ∧ y < a + 4 ∧ be.getLsbD (y - a) = true then byteOf w (y - a) else readByte m y := by
  have h0 := wf_writeEnabled h a be w 0
  have h1 := wf_writeEnabled h0 a be w 1
  have h2 := wf_writeEnabled h1 a be w 2
  unfold writeWord
  rw [if_pos ha, readByte_writeEnabled h2, readByte_writeEnabled h1, readByte_writeEnabled h0, readByte_writeEnabled h]
  by_cases hin : a ≤ y ∧ y < a + 4
  · obtain ⟨i, rfl⟩ : ∃ i, y = a + i := ⟨y - a, by omega⟩
    have hi : i < 4 := by omega
    interval_cases i <;> simp
  · have hnot : ∀ i, i < 4 → ¬ y = a + i := by intro i hi; omega
    have hne : ¬ (a ≤ y ∧ y < a + 4 ∧ be.getLsbD (y - a) = true) := fun hc => hin ⟨hc.1, hc.2.1⟩
    rw [if_neg hne]
    simp [hnot 1 (by omega), hnot 2 (by omega), hnot 3 (by omega)]
    simpa using fun h' => absurd h' (hnot 0 (by omega))

/-- A word write at or beyond the end of memory changes nothing (log entry 17). -/
theorem writeWord_beyond {m : List Host.Cell} {a : Nat} (ha : memoryEnd ≤ a) (be : Enables) (w : Word) :
    writeWord m a be w = m := if_neg (by omega)

/-- A byte outside a word reads as before a write of the word, whatever the enables. -/
theorem readByte_writeWord_other {m : List Host.Cell} (h : Memory.wf m = true) (a : Nat) (be : Enables) (w : Word)
    {y : Nat} (hy : y < a ∨ a + 4 ≤ y) : readByte (writeWord m a be w) y = readByte m y := by
  by_cases ha : a < memoryEnd
  · rw [readByte_writeWord h ha, if_neg (by omega)]
  · rw [writeWord_beyond (by omega)]

/-- A word put together from the four bytes of a word is that word. -/
theorem wordOfBytes_byteOf (w : Word) : wordOfBytes (byteOf w 0) (byteOf w 1) (byteOf w 2) (byteOf w 3) = w := by
  unfold wordOfBytes byteOf
  ext i hi
  simp only [BitVec.getElem_append, BitVec.getElem_extractLsb']
  repeat' split
  all_goals simp only [← BitVec.getLsbD_eq_getElem]; congr 1; omega

/-- A word written whole reads back. -/
theorem readWord_writeWord {m : List Host.Cell} (h : Memory.wf m = true) {a : Nat} (ha : a < memoryEnd) (w : Word) :
    readWord (writeWord m a 0xF#4 w) a = w := by
  unfold readWord
  rw [readByte_writeWord h ha, readByte_writeWord h ha, readByte_writeWord h ha, readByte_writeWord h ha]
  simpa using wordOfBytes_byteOf w

end Sys2Proof.Machine
end

