-- ==== Sys2Proof/Laws/PerInstr.lean ====
section
/-! SUPPORT. One statement made for each command: with well-formed operands, the access it presents upstream is of the
class of its row (R167, R1). -/

namespace Sys2Proof.Laws.WellFormedOperands

open Sys2Proof.Machine

/-- The access a command presents upstream, if it is one. -/
def accessOf : Instr → Option Access
  | .enable operand spare tag => some (commandWrite .enable operand spare tag)
  | .disable operand spare tag => some (commandWrite .disable operand spare tag)
  | .start operand spare tag => some (commandWrite .start operand spare tag)
  | .stop operand spare tag => some (commandWrite .stop operand spare tag)
  | .resume operand spare tag => some (commandWrite .resume operand spare tag)
  | .restart operand spare tag => some (commandWrite .restart operand spare tag)
  | .release operand spare tag => some (commandWrite .release operand spare tag)
  | .trigger operand spare tag => some (commandWrite .trigger operand spare tag)
  | .reinit operand spare tag => some (commandWrite .reinit operand spare tag)
  | .adopt operand spare tag => some (commandWrite .adopt operand spare tag)
  | .compare operand spare tag => some (commandWrite .compare operand spare tag)
  | .markBased operand spare tag => some (commandWrite .markBased operand spare tag)
  | .clearConditions operand spare tag => some (commandWrite .clearConditions operand spare tag)
  | .ackNotices operand spare tag => some (commandWrite .ackNotices operand spare tag)
  | .unknownCode data => some (pageWrite 0x880#12 0xF#4 data)
  | .refusedForm be data => some (pageWrite 0x880#12 be data)
  | .planWrite offset be data => some (pageWrite offset be data)
  | .takenIndexWrite be data => some (pageWrite 0x884#12 be data)
  | .upstreamMemoryWrite addr be data => some ⟨addr, true, be, data⟩
  | .upstreamMemoryRead addr be => some ⟨addr, false, be, 0#32⟩
  | .partWrittenAreaWrite offset be data => some (pageWrite offset be data)
  | .strayAccess addr write be data => some ⟨addr, write, be, if write then data else 0#32⟩
  | .shotWindowRead offset be => some ⟨shotAddress offset, false, be, 0#32⟩
  | .viewWindowWrite offset be data => some ⟨viewAddress offset, true, be, data⟩
  | .headerWrite data => some ⟨shotAddress 0#16, true, 0xF#4, data⟩
  | .wordWrite offset data => some ⟨shotAddress (offset ++ 0#2), true, 0xF#4, data⟩
  | .partialWrite offset be data => some ⟨shotAddress (offset ++ 0#2), true, be, data⟩
  | .viewRead offset be => some ⟨viewAddress offset, false, be, 0#32⟩
  | .passGrant => none
  | .accumGrant => none
  | .traceGrant => none
  | .viewFetchGrant => none
  | .postGrant => none
  | .quietHoursGateAsserted => none
  | .quietHoursGateDeasserted => none
  | .liveLightGuardAsserted => none
  | .liveLightGuardDeasserted => none
  | .triggerEdge _ => none
  | .hardReset => none
  | .resetDeasserted => none
  | .settleTimerExpiry => none
  | .warmUpExpiry => none
  | .warmHoldExpiry => none
  | .dutyPeriodEnd => none
  | .shotSpacingExpiry => none
  | .shotDeadlineExpiry _ => none
  | .takeResult => none

/-- The classes of address that the row of a command takes in. -/
def classesOf : Instr → List AccessClass
  | .enable _ _ _ => [.commandWord]
  | .disable _ _ _ => [.commandWord]
  | .start _ _ _ => [.commandWord]
  | .stop _ _ _ => [.commandWord]
  | .resume _ _ _ => [.commandWord]
  | .restart _ _ _ => [.commandWord]
  | .release _ _ _ => [.commandWord]
  | .trigger _ _ _ => [.commandWord]
  | .reinit _ _ _ => [.commandWord]
  | .adopt _ _ _ => [.commandWord]
  | .compare _ _ _ => [.commandWord]
  | .markBased _ _ _ => [.commandWord]
  | .clearConditions _ _ _ => [.commandWord]
  | .ackNotices _ _ _ => [.commandWord]
  | .unknownCode _ => [.commandWord]
  | .refusedForm _ _ => [.commandWord]
  | .planWrite _ _ _ => [.planArea]
  | .takenIndexWrite _ _ => [.takenIndexWord]
  | .upstreamMemoryWrite _ _ _ => [.memory, .controlPlain]
  | .upstreamMemoryRead _ _ => [.memory, .planArea, .commandWord, .takenIndexWord, .partWritten, .controlPlain]
  | .partWrittenAreaWrite _ _ _ => [.partWritten]
  | .strayAccess _ _ _ _ => [.stray]
  | .shotWindowRead _ _ => [.shotWindow]
  | .viewWindowWrite _ _ _ => [.viewWindow]
  | .headerWrite _ => [.shotWindow]
  | .wordWrite _ _ => [.shotWindow]
  | .partialWrite _ _ _ => [.shotWindow]
  | .viewRead _ _ => [.viewWindow]
  | .passGrant => []
  | .accumGrant => []
  | .traceGrant => []
  | .viewFetchGrant => []
  | .postGrant => []
  | .quietHoursGateAsserted => []
  | .quietHoursGateDeasserted => []
  | .liveLightGuardAsserted => []
  | .liveLightGuardDeasserted => []
  | .triggerEdge _ => []
  | .hardReset => []
  | .resetDeasserted => []
  | .settleTimerExpiry => []
  | .warmUpExpiry => []
  | .warmHoldExpiry => []
  | .dutyPeriodEnd => []
  | .shotSpacingExpiry => []
  | .shotDeadlineExpiry _ => []
  | .takeResult => []

/-- With well-formed operands, the access a command presents is of a class of its row. -/
def Statement (i : Instr) : Prop := i.wf = true → ∀ a, accessOf i = some a → classOf a.word ∈ classesOf i

/-- A command of the command word writes the command word. -/
theorem command (c : CommandName) (operand spare tag : BitVec 8) (a : Access)
    (h : some (commandWrite c operand spare tag) = some a) : classOf a.word ∈ [AccessClass.commandWord] := by
  cases h
  simp [classOf_commandWrite]

/-- A word in the shot window. -/
theorem inShotWindow (offset : BitVec 16) (write : Bool) (be : Enables) (data : Word) :
    classOf (⟨shotAddress offset, write, be, data⟩ : Access).word ∈ [AccessClass.shotWindow] := by
  have := offset.isLt
  have h : (⟨shotAddress offset, write, be, data⟩ : Access).word = 0x1000000 + offset.toNat / 4 * 4 := by
    simp only [Access.word, shotAddress, BitVec.toNat_add, BitVec.toNat_setWidth, BitVec.toNat_ofNat]
    omega
  rw [h]
  unfold classOf
  split_ifs <;> first | omega | simp

/-- A word in the view window. -/
theorem inViewWindow (offset : BitVec 16) (write : Bool) (be : Enables) (data : Word) :
    classOf (⟨viewAddress offset, write, be, data⟩ : Access).word ∈ [AccessClass.viewWindow] := by
  have := offset.isLt
  have h : (⟨viewAddress offset, write, be, data⟩ : Access).word = 0x1800000 + offset.toNat / 4 * 4 := by
    simp only [Access.word, viewAddress, BitVec.toNat_add, BitVec.toNat_setWidth, BitVec.toNat_ofNat]
    omega
  rw [h]
  unfold classOf
  split_ifs <;> first | omega | simp

theorem enable (operand spare tag : BitVec 8) : Statement (.enable operand spare tag) := fun _ a h =>
  command .enable operand spare tag a h

theorem disable (operand spare tag : BitVec 8) : Statement (.disable operand spare tag) := fun _ a h =>
  command .disable operand spare tag a h

theorem start (operand spare tag : BitVec 8) : Statement (.start operand spare tag) := fun _ a h =>
  command .start operand spare tag a h

theorem stop (operand spare tag : BitVec 8) : Statement (.stop operand spare tag) := fun _ a h =>
  command .stop operand spare tag a h

theorem resume (operand spare tag : BitVec 8) : Statement (.resume operand spare tag) := fun _ a h =>
  command .resume operand spare tag a h

theorem restart (operand spare tag : BitVec 8) : Statement (.restart operand spare tag) := fun _ a h =>
  command .restart operand spare tag a h

theorem release (operand spare tag : BitVec 8) : Statement (.release operand spare tag) := fun _ a h =>
  command .release operand spare tag a h

theorem trigger (operand spare tag : BitVec 8) : Statement (.trigger operand spare tag) := fun _ a h =>
  command .trigger operand spare tag a h

theorem reinit (operand spare tag : BitVec 8) : Statement (.reinit operand spare tag) := fun _ a h =>
  command .reinit operand spare tag a h

theorem adopt (operand spare tag : BitVec 8) : Statement (.adopt operand spare tag) := fun _ a h =>
  command .adopt operand spare tag a h

theorem compare (operand spare tag : BitVec 8) : Statement (.compare operand spare tag) := fun _ a h =>
  command .compare operand spare tag a h

theorem markBased (operand spare tag : BitVec 8) : Statement (.markBased operand spare tag) := fun _ a h =>
  command .markBased operand spare tag a h

theorem clearConditions (operand spare tag : BitVec 8) : Statement (.clearConditions operand spare tag) := fun _ a h =>
  command .clearConditions operand spare tag a h

theorem ackNotices (operand spare tag : BitVec 8) : Statement (.ackNotices operand spare tag) := fun _ a h =>
  command .ackNotices operand spare tag a h

theorem unknownCode (data : Word) : Statement (.unknownCode data) := by
  rintro - a ⟨⟩
  rw [pageWrite_word]
  show classOf _ ∈ [AccessClass.commandWord]
  decide

theorem refusedForm (be : Enables) (data : Word) : Statement (.refusedForm be data) := by
  rintro - a ⟨⟩
  rw [pageWrite_word]
  show classOf _ ∈ [AccessClass.commandWord]
  decide

theorem planWrite (offset : BitVec 12) (be : Enables) (data : Word) : Statement (.planWrite offset be data) := by
  rintro h a ⟨⟩
  have hlt : offset.toNat < 0x880 := by simpa [Instr.wf, planOffset] using h
  rw [pageWrite_word]
  unfold classOf
  split_ifs <;> first | omega | simp [classesOf]

theorem takenIndexWrite (be : Enables) (data : Word) : Statement (.takenIndexWrite be data) := by
  rintro - a ⟨⟩
  rw [pageWrite_word]
  show classOf _ ∈ [AccessClass.takenIndexWord]
  decide

theorem upstreamMemoryWrite (addr : Addr) (be : Enables) (data : Word) : Statement (.upstreamMemoryWrite addr be data) := by
  rintro h a ⟨⟩
  have hr : addr.toNat < 0xFFF000 ∨ (0xFFF888 ≤ addr.toNat ∧ addr.toNat < 0x1000000) ∧
      (addr.toNat % 0x1000 < 0x900 ∨ 0xCE0 ≤ addr.toNat % 0x1000) := by
    have h' : plainWriteAddress addr.toNat = true := h
    simp only [plainWriteAddress, partWrittenOffset, Bool.or_eq_true, Bool.and_eq_true, decide_eq_true_eq,
      Bool.not_eq_true', Bool.and_eq_false_iff, decide_eq_false_iff_not] at h'
    omega
  dsimp only [Access.word]
  unfold classOf
  split_ifs <;> first | omega | simp [classesOf]

theorem upstreamMemoryRead (addr : Addr) (be : Enables) : Statement (.upstreamMemoryRead addr be) := by
  rintro h a ⟨⟩
  have hlt : addr.toNat < 0x1000000 := by simpa [Instr.wf] using h
  dsimp only [Access.word]
  unfold classOf
  split_ifs <;> first | omega | simp [classesOf]

theorem partWrittenAreaWrite (offset : BitVec 12) (be : Enables) (data : Word) : Statement (.partWrittenAreaWrite offset be data) := by
  rintro h a ⟨⟩
  have hr : 0x900 ≤ offset.toNat ∧ offset.toNat < 0xCE0 := by simpa [Instr.wf, partWrittenOffset] using h
  rw [pageWrite_word]
  unfold classOf
  split_ifs <;> first | omega | simp [classesOf]

theorem strayAccess (addr : Addr) (write : Bool) (be : Enables) (data : Word) : Statement (.strayAccess addr write be data) := by
  rintro h a ⟨⟩
  have hr : (0x1010000 ≤ addr.toNat ∧ addr.toNat < 0x1800000) ∨ 0x1810000 ≤ addr.toNat := by
    simpa [Instr.wf, strayAddress] using h
  dsimp only [Access.word]
  unfold classOf
  split_ifs <;> first | omega | simp [classesOf]

theorem shotWindowRead (offset : BitVec 16) (be : Enables) : Statement (.shotWindowRead offset be) := by
  rintro - a ⟨⟩
  exact inShotWindow offset false be 0#32

theorem viewWindowWrite (offset : BitVec 16) (be : Enables) (data : Word) : Statement (.viewWindowWrite offset be data) := by
  rintro - a ⟨⟩
  exact inViewWindow offset true be data

theorem headerWrite (data : Word) : Statement (.headerWrite data) := by
  rintro - a ⟨⟩
  exact inShotWindow 0#16 true 0xF#4 data

theorem wordWrite (offset : BitVec 14) (data : Word) : Statement (.wordWrite offset data) := by
  rintro - a ⟨⟩
  exact inShotWindow (offset ++ 0#2) true 0xF#4 data

theorem partialWrite (offset : BitVec 14) (be : Enables) (data : Word) : Statement (.partialWrite offset be data) := by
  rintro - a ⟨⟩
  exact inShotWindow (offset ++ 0#2) true be data

theorem viewRead (offset : BitVec 16) (be : Enables) : Statement (.viewRead offset be) := by
  rintro - a ⟨⟩
  exact inViewWindow offset false be 0#32

theorem passGrant : Statement .passGrant := by rintro - a ⟨⟩

theorem accumGrant : Statement .accumGrant := by rintro - a ⟨⟩

theorem traceGrant : Statement .traceGrant := by rintro - a ⟨⟩

theorem viewFetchGrant : Statement .viewFetchGrant := by rintro - a ⟨⟩

theorem postGrant : Statement .postGrant := by rintro - a ⟨⟩

theorem quietHoursGateAsserted : Statement .quietHoursGateAsserted := by rintro - a ⟨⟩

theorem quietHoursGateDeasserted : Statement .quietHoursGateDeasserted := by rintro - a ⟨⟩

theorem liveLightGuardAsserted : Statement .liveLightGuardAsserted := by rintro - a ⟨⟩

theorem liveLightGuardDeasserted : Statement .liveLightGuardDeasserted := by rintro - a ⟨⟩

theorem triggerEdge (sense : EdgeSense) : Statement (.triggerEdge sense) := by rintro - a ⟨⟩

theorem hardReset : Statement .hardReset := by rintro - a ⟨⟩

theorem resetDeasserted : Statement .resetDeasserted := by rintro - a ⟨⟩

theorem settleTimerExpiry : Statement .settleTimerExpiry := by rintro - a ⟨⟩

theorem warmUpExpiry : Statement .warmUpExpiry := by rintro - a ⟨⟩

theorem warmHoldExpiry : Statement .warmHoldExpiry := by rintro - a ⟨⟩

theorem dutyPeriodEnd : Statement .dutyPeriodEnd := by rintro - a ⟨⟩

theorem shotSpacingExpiry : Statement .shotSpacingExpiry := by rintro - a ⟨⟩

theorem shotDeadlineExpiry (sequence : BitVec 16) : Statement (.shotDeadlineExpiry sequence) := by
  rintro - a ⟨⟩

theorem takeResult : Statement .takeResult := by rintro - a ⟨⟩

end Sys2Proof.Laws.WellFormedOperands
end

