-- ==== Sys2Proof/Laws/Shots.lean ====
section
/-! SUPPORT. What Shot Intake's operations come to when they move no slot: writes of the shot window, lost and rejected
shots below the failure limit, and adds stopped. -/

namespace Sys2Proof.Machine

/-- A write to word `offset` of the shot window lies at that word, in the window (R167). -/
theorem shotAddress_word (offset : BitVec 14) (be : Enables) (data : Word) :
    (⟨shotAddress (offset ++ 0#2), true, be, data⟩ : Access).word = 0x1000000 + 4 * offset.toNat := by
  have := offset.isLt
  have e : (offset ++ 0#2 : BitVec 16).toNat = 4 * offset.toNat := by
    simp only [BitVec.toNat_append, BitVec.toNat_ofNat, Nat.shiftLeft_eq, Nat.zero_mod, Nat.or_zero]
    omega
  simp only [Access.word, shotAddress, BitVec.toNat_add, BitVec.toNat_setWidth, e, BitVec.toNat_ofNat]
  omega

/-- A write to the shot window goes to Shot Intake (R67). -/
theorem present_shot {s : State} (h : BusReady s) (offset : BitVec 14) (be : Enables) (data : Word) :
    present ⟨shotAddress (offset ++ 0#2), true, be, data⟩ s =
      report (advance (report (shotWindowWrite offset.toNat be data s))) := by
  have hlt := offset.isLt
  have hw := shotAddress_word offset be data
  have hc : classOf (0x1000000 + 4 * offset.toNat) = .shotWindow := by
    unfold classOf
    split_ifs <;> first | omega | rfl
  have ho : (0x1000000 + 4 * offset.toNat) % 0x10000 / 4 = offset.toNat := by omega
  simp [present_ready h, takeAccess, takeWrite, takeShotWrite, hw, hc, ho]

/-- A shot-window write after which nothing moves by itself. -/
theorem present_shot_settled {s u : State} (h : BusReady s) (hs : Settled s) {offset : BitVec 14} {be : Enables}
    {data : Word} (hu : shotWindowWrite offset.toNat be data s = u) (h1 : u.seq = s.seq)
    (h2 : u.trace.bg = s.trace.bg) (h3 : u.trace.view = s.trace.view) :
    present ⟨shotAddress (offset ++ 0#2), true, be, data⟩ s = report u := by
  rw [present_shot h, hu, advance_settled (settled_of hs (by simpa) (by simpa) (by simpa)), report_report]

/-- Nothing fires while the shot spacing runs (R56). -/
theorem testFire_spaced {s : State} (h : Spaced s) : testFire s = s := by
  obtain ⟨t, ht⟩ := Option.ne_none_iff_exists'.1 h
  unfold testFire fireAllowedButDuty
  split <;> simp [ht]

/-- A staging buffer set keeps the failure count. -/
@[simp] theorem setBuffer_failures (i : BufIx) (b : Buffer) (s : State) :
    (setBuffer i b s).intake.failures = s.intake.failures := by
  cases i <;> rfl

/-- A lost shot below the failure limit (R76, R77). -/
theorem lose_below_limit {k : SlotIx} {x : Shot} {s : State}
    (hl : s.intake.failures + 1 ≠ headerFailureLimit (activeHeader s)) :
    lose k x s = shotLost k x s := by
  unfold lose failureTest
  dsimp only
  rw [if_neg]
  · unfold shotLost dropShot modifySlot
    cases x.buffer <;> simp [setBuffer]
  · simpa [dropShot, activeHeader] using hl

/-- A rejected record below the failure limit (R73, R77). -/
theorem reject_below_limit {r : RejectReason} {k : SlotIx} {f : Frame} {s : State}
    (hl : s.intake.failures + 1 ≠ headerFailureLimit (activeHeader s)) :
    reject r k f s = rejected r k f s := by
  unfold reject failureTest
  dsimp only
  rw [if_neg]
  · unfold rejected dropShot modifySlot
    cases f.buffer <;> simp [setBuffer]
  · simpa [dropShot, activeHeader] using hl

/-- With no view read held, an add stopped leaves the queue and the engine empty and a lock free, and nothing else
changed (R93). -/
theorem stopAdds_held {s : State} (hv : s.trace.view = none) :
    stopAdds s = { s with accum := { s.accum with queue := [], add := none, lock := (stopAdds s).accum.lock } } := by
  unfold stopAdds
  split
  · simp [releaseByAdd, setLock, hv, testAdd]
  · rename_i h
    simp [h]

end Sys2Proof.Machine
end

