-- ==== Sys2Proof/Tests/Slice0.lean ====
section
/-! SUPPORT. Our own tests: the smoke test of WellFormed, the spec's worked figures, and for each statement with
hypotheses concrete states and operands that meet them together. -/

-- One test after the other: many kernel evaluations at once take too much memory.
set_option Elab.async false

open Sys2Proof Sys2Proof.Machine

namespace Sys2Proof.Tests

/-! ### WellFormed refuses the ill-formed -/

/-- A named code is no unknown code, in both ends of the range (R19). -/
theorem test_wf_unknownCode : Instr.wf (.unknownCode 0x01) = false ∧ Instr.wf (.unknownCode 0x0E) = false ∧
    Instr.wf (.unknownCode 0x00) = true ∧ Instr.wf (.unknownCode 0x0F) = true := by decide

/-- Four enables make no refused form and no partial write (R18, R67). -/
theorem test_wf_enables : Instr.wf (.refusedForm 0xF 1) = false ∧ Instr.wf (.refusedForm 0x7 1) = true ∧
    Instr.wf (.partialWrite 3 0xF 0) = false ∧ Instr.wf (.partialWrite 3 0 0) = true := by decide

/-- The plan areas end at 0x87F, the part-written areas run from 0x900 to 0xCDF (R1, R167). -/
theorem test_wf_offsets : Instr.wf (.planWrite 0x87F 1 0) = true ∧ Instr.wf (.planWrite 0x880 1 0) = false ∧
    Instr.wf (.partWrittenAreaWrite 0x8FF 1 0) = false ∧ Instr.wf (.partWrittenAreaWrite 0x900 1 0) = true ∧
    Instr.wf (.partWrittenAreaWrite 0xCDF 1 0) = true ∧ Instr.wf (.partWrittenAreaWrite 0xCE0 1 0) = false := by decide

/-- A memory write goes below the page or to a plain word of it; a read to trace memory (R167). -/
theorem test_wf_memory : Instr.wf (.upstreamMemoryWrite 0xFFEFFF 1 0) = true ∧
    Instr.wf (.upstreamMemoryWrite 0xFFF000 1 0) = false ∧ Instr.wf (.upstreamMemoryWrite 0xFFF888 1 0) = true ∧
    Instr.wf (.upstreamMemoryWrite 0xFFF900 1 0) = false ∧ Instr.wf (.upstreamMemoryWrite 0xFFFCE0 1 0) = true ∧
    Instr.wf (.upstreamMemoryRead 0xFFFFFF 1) = true ∧ Instr.wf (.upstreamMemoryRead 0x1000000 1) = false := by decide

/-- A stray access is to no window and not to memory (R167). -/
theorem test_wf_stray : Instr.wf (.strayAccess 0x100FFFF true 1 0) = false ∧
    Instr.wf (.strayAccess 0x1010000 true 1 0) = true ∧ Instr.wf (.strayAccess 0x1800000 true 1 0) = false ∧
    Instr.wf (.strayAccess 0x1810000 false 1 0) = true := by decide

/-- Word 0 of the shot window is the header's (R67). -/
theorem test_wf_wordWrite : Instr.wf (.wordWrite 0 5) = false ∧ Instr.wf (.wordWrite 1 5) = true := by decide

/-! ### The spec's worked figures -/

/-- The reference of R66. -/
theorem test_check_value :
    [0x31, 0x32, 0x33, 0x34, 0x35, 0x36, 0x37, 0x38, 0x39].foldl crcByte crcPreset = 0x29B1#16 := by decide +kernel

/-- Level computations, cases A and B of chapter 6, and the reference values of R97. -/
theorem test_levels : level 18841600 1 4096 = 18314 ∧ level (940000 - 4 * 100 * 1000) 4 1000 = 10652 ∧
    levelOf 1 2 = -1505 ∧ levelOf 10 1 = 5000 := by decide +kernel

/-- The table of R4. -/
theorem test_ring_capacity : [0, 15, 16, 100, 1000, 1024, 3000].map floorPower = [16, 16, 16, 64, 512, 1024, 1024] := by
  decide

/-- The worked PACKED read of chapter 10: 571 and 1,199 output points. -/
theorem test_output_counts : outputCount 4864 300 8 4 = 571 ∧ outputCount 4864 64 4 4 = 1200 := by decide

/-- The pair of chapter 8 with a long loss well above the ratio is a BEND. -/
theorem test_pair_bend :
    pairKinds ⟨.lossCandidate, 107, -180, false, false⟩ ⟨.lossCandidate, 105, -641, false, false⟩ 4 24 =
      (some .bend, some .bend) := by decide

/-! ### States to start from -/

/-- After reset, with every status word written. -/
def quiet : State := { State.reset with
  mirror.dirty := Vector.replicate 224 false
  findings.resetCapture := 0 }

/-- A record of 256 points, spacing 100, target 2, confirm length 1, compare range 0 to 3, one zone, injected 2. -/
def record (word0 acc base : Word) : Record16 :=
  #v[word0, 0x00640100, 2, 0x00010000, acc, base, 0x00030000, 0x00000100, 0, 2, 0, 0, 0, 0, 0, 0]

/-- Slots 0 and 1 enabled on ports 0 and 1 with sources 0 and 1. -/
def planned : State := { quiet with
  plan.activeCopy.records := ((Vector.replicate 24 (Vector.replicate 16 0#32)).set 0 (record 1 0x1000 0x2000)).set 1
    (record 0x00010101 0x1400 0x3000) }

/-- The sequencer at rest in a state, with the gate at a level. -/
def restState (st : SeqState) (gate : Bool) : State := { planned with seq.state := st, pins.gate := gate }

/-- The active header with a word changed. -/
def withHeader (i : Fin 32) (w : Word) (s : State) : State :=
  { s with plan.activeCopy.header := s.plan.activeCopy.header.set i w }

/-- SWEEPING with slot 0 in a phase and slot 1 in COMPARING, spacing running. -/
def lanesAt (p : AcqPhase) : State := { planned with
  seq := { SequencerState.reset with
    state := .sweeping
    acq := some ⟨0, p⟩
    comp := some ⟨1, .comparing⟩
    cursor := 2
    entered := true }
  opt.spacingTimer := some 100 }

/-- A shot of slot 0. -/
def shot0 : Shot := ⟨0, 1000, .b0⟩

/-- Slot 0 in FIRING with a shot outstanding. -/
def fired : State := { lanesAt .firing with intake.outstanding := [shot0], intake.buffer0 := .reserved }

/-- The frame of that shot's record at a word offset, with its check value. -/
def frame (next : Nat) (crc : BitVec 16) : Frame := ⟨.b0, 0, next, 129, crc⟩

/-- That record in progress at a word offset. -/
def framing (next : Nat) (header : Word) : State := { fired with
  intake.framing := some (frame next 0x1234)
  intake.buffer0 := .filling ⟨header, []⟩ }

/-- An add in progress at a point. -/
def adding (mode : AddMode) (point : Nat) (read : Option Word) : AddState := ⟨0, .b0, mode, false, point, read⟩

/-- Slot 0 with an add in progress. -/
def addState (a : AddState) : State := { lanesAt .firing with
  accum.add := some a
  accum.lock := (Vector.replicate 24 LockState.free).set 0 .adding
  intake.buffer0 := .queued ⟨0, []⟩ }

/-- A background operation on slot 1 at a point. -/
def background (op : BgOp) (point : Nat) (acc : Option Word) : Background :=
  { newBackground op 1 2 planned with point := point, acc := acc }

/-- A COMPARE-RUN on slot 1, with memory given. -/
def comparing (b : Background) (mem : List Host.Cell) : State := { lanesAt .firing with
  trace.bg := some b
  mem := mem }

/-- A view read of word 0 in LINEAR format with a bin. -/
def fetching (bin : Nat) : ViewFields := ⟨0, .linear, false, 0, bin, bin, 256 / bin, 0x1000, 0x2000, 0⟩

/-- That read held, with its first word asked for. -/
def viewing (bin : Nat) : State := { planned with
  trace.view := some ⟨⟨0x1800000, false, 0xF, 0⟩, .fetching (fetching bin) 2 []⟩
  accum.lock := (Vector.replicate 24 LockState.free).set 0 .viewing }

/-- A result in POSTING. -/
def result (kind : Kind) : Result := ⟨kind, 3, -7, false, false, CondSet.empty, .none, 0, false, 0⟩

/-- Slot 1 in POSTING, slot 0 in a phase, slot 1 unpaired. -/
def posting (kind : Kind) : State := { lanesAt .firing with
  seq := { (lanesAt .firing).seq with comp := some ⟨1, .posting (result kind)⟩ }
  verdict.judgements := (Vector.replicate 24 Judgement.notEntered).set 1 .unpaired }

/-- A finding of slot 1. -/
def finding : Finding := ⟨0, 1, .clear, .unknown, 1, 0, 1, 1, false, false, false, false, false, .none, 0⟩

/-- A record at the head of the queue with all but its last word written. -/
def lastWord (r : QRecord) (n base : Nat) : State := { planned with
  findings.queue := [r]
  findings.headWord := n
  findings.headBase := base }

/-- A summary of an empty sweep. -/
def summary : Summary := ⟨1, .once, .quiet, true, 0, 0, Vector.replicate 24 .notInSweep⟩

/-- With the background slot FREE the Trace Engine has settled. -/
theorem free_settled {s : State} (h : s.trace.bg = none) : TraceSettled s := by
  intro b hb
  rw [h] at hb
  cases hb

/-- An operation that needs a word has settled. -/
theorem needs_settled {s : State} {b : Background} (h : s.trace.bg = some b) (hn : traceNeed b ≠ .nothing) :
    TraceSettled s := by
  intro c hc
  rw [h] at hc
  cases hc
  exact hn

/-- A spacing timer that runs keeps a slot from firing. -/
theorem spaced_of {s : State} {t : Nat} (h : s.opt.spacingTimer = some t) : Spaced s := by
  unfold Spaced
  rw [h]
  exact Option.some_ne_none t

/-- With every dirty mark and the ring-pending mark clear, no region would apply. -/
theorem plan_settled {s : State} (h : s.plan = planned.plan) : PlanSettled s := by
  refine .inr ⟨?_, ?_, ?_⟩
  · unfold headerDue
    rw [h]
    rfl
  · rw [h]
    rfl
  · rw [h]
    show ∀ k : SlotIx, (Vector.replicate 24 false)[k] = false
    decide

/-- Slot 0 in FIRING can fire from the buffers and counts of the rest state. -/
theorem fireReady_of {s : State} (lane : s.seq.state = .sweeping ∧ s.seq.acq = some ⟨0, .firing⟩)
    (hp : s.plan = planned.plan) (hi : s.intake = planned.intake) (ha : s.accum = planned.accum) : FireReady 0 s where
  firing := lane
  room := by
    rw [hi]
    decide
  buffer := by
    rw [hi]
    exact .inl rfl
  wanted := by
    unfold activeRecord
    rw [hi, ha, hp]
    show planned.intake.accepted[(0 : SlotIx)] + 0 + 0 + 0 < recTarget planned.plan.activeCopy.records[(0 : SlotIx)]
    decide +kernel

/-- Slot 0's source has its duty left as the duty count and the plan give it. -/
theorem dutyLeft_iff {s : State} {n : Nat} (hp : s.plan = planned.plan) (hd : s.opt.dutyCount = ⟨n, 0, 0⟩) :
    DutyLeft 0 s ↔ n < 10000 := by
  unfold DutyLeft activeRecord activeHeader
  rw [hp, hd]
  have hr : recSource planned.plan.activeCopy.records[(0 : SlotIx)] = 0 := by decide +kernel
  have hl : headerDutyLimit planned.plan.activeCopy.header 0 = 10000 := by decide +kernel
  rw [hr, hl]
  rfl

/-! ### States and operands that meet each statement's hypotheses -/

/-- For MemoryStaysCanonical: a step from a memory with a byte in it. -/
theorem witness_MemoryStaysCanonical :
    ∃ s t : State, Memory.wf s.mem = true ∧ s.mem ≠ [] ∧ step s = .next t :=
  ⟨{ planned with mem := [(0x1000, 1)], pending := [.passGrant] }, _, by decide +kernel, by decide +kernel, rfl⟩

/-- For MirrorShowsContents: a step from a state whose image shows its contents. -/
theorem witness_MirrorShowsContents :
    ∃ s t : State, Mirrored s ∧ s.pending ≠ [] ∧ step s = .next t :=
  ⟨{ State.reset with pending := [.ackNotices 0 0 1] }, _, by
    unfold Mirrored
    decide +kernel, by decide, rfl⟩

/-- For OneSourceOutOfCold and LanesOnlyInSweeping and PassCountBounded: a step from SWEEPING with a source WARMING. -/
theorem witness_invariants :
    ∃ s t : State, OneSource s ∧ sourceState s 1 = .warming ∧ LanesInSweep s ∧ s.seq.acq ≠ none ∧
      s.path.passCount = 8 ∧ step s = .next t :=
  ⟨{ lanesAt .settling with
      opt.warm := ⟨.cold, .warming, .cold⟩
      opt.warmUpTimer := some ⟨1, 500⟩
      path.passCount := 8
      pending := [.warmUpExpiry] }, _,
    ⟨by
      intro i j hi hj
      rcases i with _ | _ | _ | i <;> rcases j with _ | _ | _ | j <;> first | rfl | exact absurd rfl hi | exact absurd rfl hj,
      by
        intro t ht
        cases ht
        rfl⟩, rfl, fun h => absurd rfl h, by decide, rfl, rfl⟩

/-- For OutcomeByState and RefusalChangesOnlyOutcome: START is refused in OFF. -/
theorem witness_RefusalChangesOnlyOutcome : BusReady quiet ∧ tableOutcome .start 0 quiet ≠ .accepted :=
  ⟨⟨rfl, rfl, rfl, rfl⟩, by decide +kernel⟩

/-- For EnableEntersIdle. -/
theorem witness_EnableEntersIdle :
    BusReady quiet ∧ TraceSettled quiet ∧ quiet.seq.state = .off ∧ quiet.plan.ringFault = false :=
  ⟨⟨rfl, rfl, rfl, rfl⟩, free_settled rfl, rfl, rfl⟩

/-- For DisableEndsInOff and ReinitRestsBlocks, in a sweep. -/
theorem witness_DisableEndsInOff : BusReady fired ∧ fired.seq.state = .sweeping :=
  ⟨⟨rfl, rfl, rfl, rfl⟩, rfl⟩

/-- Slot 0 can start a sweep from a state at rest. -/
theorem firstSlotSettles (st : SeqState) (gate : Bool) : FirstSlotSettles (restState st gate) where
  plan := .inr ⟨rfl, rfl, by
    show ∀ k : SlotIx, (Vector.replicate 24 false)[k] = false
    decide⟩
  ring := rfl
  enabled := by
    show recEnable planned.plan.activeCopy.records[0] = true
    decide +kernel
  check := by
    show planCheck planned 0 = true
    decide +kernel
  cold := by
    show warmOf planned (recSource planned.plan.activeCopy.records[0]) ≠ .warm
    decide +kernel
  acq := rfl
  comp := rfl
  trace := free_settled rfl

/-- For SweepStarts: START in IDLE, RELEASE in PAUSED, RESTART in WAITING. -/
theorem witness_SweepStarts :
    (∀ st gate, BusReady (restState st gate) ∧ FirstSlotSettles (restState st gate)) ∧
    (restState .idle true).seq.state = .idle ∧ deferring (restState .idle true) = false ∧
    headerMode (activeHeader (restState .idle true)) ≠ .triggered ∧ (restState .idle true).pins.gate = true ∧
    headerPauseOnRestart (activeHeader (restState .waiting true)) = false ∧
    (restState .waiting false).pins.gate = false :=
  ⟨fun st gate => ⟨⟨rfl, rfl, rfl, rfl⟩, firstSlotSettles st gate⟩, rfl, rfl, by decide +kernel, rfl, by decide +kernel,
    rfl⟩

/-- WAITING for a trigger, with the gate asserted. -/
def armed : State := withHeader 0 2 (restState .waiting true)

/-- For SweepStarts: TRIGGER and the trigger edge in TRIGGERED mode. -/
theorem witness_SweepStarts_triggered :
    BusReady armed ∧ FirstSlotSettles armed ∧ armed.seq.state = .waiting ∧
      headerMode (activeHeader armed) = .triggered ∧ armed.pins.gate = true :=
  ⟨⟨rfl, rfl, rfl, rfl⟩,
    ⟨.inr ⟨rfl, rfl, by
        show ∀ k : SlotIx, (Vector.replicate 24 false)[k] = false
        decide⟩, rfl, by decide +kernel, by decide +kernel, by decide +kernel, rfl, rfl, free_settled rfl⟩,
    rfl, by decide +kernel, rfl⟩

/-- The ring pair pending with the lowest base that ends above the control page's start, under hold or not. -/
def refused (mode : Word) (hold : Bool) : State :=
  let header := (planned.plan.activeCopy.header.set 0 mode).set 16 (if hold then 1 else 0)
  { planned with
    plan.activeCopy.header := header
    plan.pendingCopy.header := header.set 6 0xFFEF10
    plan.ringPending := true
    plan.ringFault := hold }

/-- For SweepStarts with the ring pair refused: at rest in any state, with the gate at either level. -/
theorem witness_SweepStarts_refused (hold gate triggered : Bool) (st : SeqState) :
    let mode : Word := if triggered then 2 else 0
    let s : State := { refused mode hold with seq.state := st, pins.gate := gate }
    BusReady s ∧ RingRefused s ∧ deferring s = false ∧ headerPauseOnRestart (activeHeader s) = false ∧
    (headerMode (activeHeader s) = .triggered ↔ triggered = true) := by
  refine ⟨⟨rfl, rfl, rfl, rfl⟩, ⟨?_, ?_, ?_, rfl, rfl, free_settled rfl⟩, rfl, ?_, ?_⟩
  · cases hold
    · right
      show holdFlag (refused _ false) = false ∧ (refused _ false).plan.ringPending = true ∧
        headerRingWritten (refused _ false).plan.pendingCopy.header ≠
          headerRingWritten (refused _ false).plan.activeCopy.header ∧
        0xFFF000 < headerRingBase (refused _ false).plan.pendingCopy.header +
          16 * headerRingCapacity (refused _ false).plan.pendingCopy.header
      cases triggered <;> decide +kernel
    · left
      show holdFlag (refused _ true) = true ∧ (refused _ true).plan.ringFault = true
      cases triggered <;> decide +kernel
  · show ∀ i : Fin 32, i ≠ 6 → i ≠ 7 →
      (refused _ hold).plan.pendingCopy.header[i] = (refused _ hold).plan.activeCopy.header[i]
    cases hold <;> cases triggered <;> decide +kernel
  · show ∀ k : SlotIx, (Vector.replicate 24 false)[k] = false
    decide
  · show headerPauseOnRestart (refused _ hold).plan.activeCopy.header = false
    cases hold <;> cases triggered <;> decide +kernel
  · show headerMode (refused _ hold).plan.activeCopy.header = .triggered ↔ _
    cases hold <;> cases triggered <;> decide +kernel

/-- For WaitingEntered: START in IDLE, RELEASE in PAUSED and RESTART in WAITING with the gate deasserted, and START in
TRIGGERED mode. -/
theorem witness_WaitingEntered :
    (∀ st, BusReady (restState st false) ∧ TraceSettled (restState st false) ∧ PlanSettled (restState st false)) ∧
    (restState .idle false).seq.state = .idle ∧ deferring (restState .idle false) = false ∧
    (restState .paused false).pins.gate = false ∧
    headerPauseOnRestart (activeHeader (restState .waiting false)) = false ∧
    headerMode (activeHeader (withHeader 0 2 (restState .idle true))) = .triggered :=
  ⟨fun st => ⟨⟨rfl, rfl, rfl, rfl⟩, free_settled rfl, (firstSlotSettles st false).plan⟩, rfl, rfl, rfl,
    by decide +kernel, by decide +kernel⟩

/-- PAUSED with pause on restart set. -/
def pausing : State := withHeader 0 4 (restState .paused true)

/-- For RestingStatesEntered: STOP in WAITING, RESTART in PAUSED, RESUME in HALTED. -/
theorem witness_RestingStatesEntered :
    BusReady pausing ∧ TraceSettled pausing ∧ PlanSettled pausing ∧ pausing.seq.state = .paused ∧
    headerPauseOnRestart (activeHeader pausing) = true ∧ BusReady (restState .halted true) ∧
    TraceSettled (restState .halted true) ∧ (restState .halted true).seq.state = .halted :=
  ⟨⟨rfl, rfl, rfl, rfl⟩, free_settled rfl, .inr ⟨rfl, rfl, by
      show ∀ k : SlotIx, (Vector.replicate 24 false)[k] = false
      decide⟩, rfl, by decide +kernel, ⟨rfl, rfl, rfl, rfl⟩, free_settled rfl, rfl⟩

/-- For CommandEndsSweep, with shots outstanding and pause on restart set. -/
theorem witness_CommandEndsSweep :
    BusReady (withHeader 0 4 fired) ∧ TraceSettled (withHeader 0 4 fired) ∧ PlanSettled (withHeader 0 4 fired) ∧
    (withHeader 0 4 fired).seq.state = .sweeping ∧ headerPauseOnRestart (activeHeader (withHeader 0 4 fired)) = true ∧
    (withHeader 0 4 fired).seq.acq ≠ none :=
  ⟨⟨rfl, rfl, rfl, rfl⟩, free_settled rfl, .inr ⟨rfl, rfl, by
      show ∀ k : SlotIx, (Vector.replicate 24 false)[k] = false
      decide⟩, rfl, by decide +kernel, by decide⟩

/-- For CommandEndsSweep with pause on restart clear: with the gate at each level, a run in progress, and slot 0 passing
the plan check with its source yet to warm up. -/
theorem witness_CommandEndsSweep_again (gate : Bool) :
    let s : State := { fired with pins.gate := gate }
    BusReady s ∧ TraceSettled s ∧ s.seq.state = .sweeping ∧ PlanSettled s ∧
    headerPauseOnRestart (activeHeader s) = false ∧ s.pins.gate = gate ∧ s.plan.ringFault = false ∧
    NextSlotSettles 0 s ∧ s.seq.acq ≠ none :=
  ⟨⟨rfl, rfl, rfl, rfl⟩, free_settled rfl, rfl, plan_settled rfl, by cases gate <;> decide +kernel, rfl, rfl,
    ⟨.inr rfl, by cases gate <;> decide +kernel, by cases gate <;> decide +kernel,
      .inr (.inr (by cases gate <;> decide +kernel))⟩, nofun⟩

/-- SWEEPING in FIRING goes no further by itself. -/
theorem fired_settled : Settled fired := ⟨by decide +kernel, by decide +kernel, idle_of rfl (free_settled rfl)⟩

/-- For AckAndMarkBased and ClearConditions: in a sweep, MARK BASED of slot 23, which holds no lane. -/
theorem witness_AckAndMarkBased :
    BusReady fired ∧ Settled fired ∧ (23#8).toNat < 24 ∧ holdsLane fired 23 = false ∧ adoptOverlaps fired 23 = false :=
  ⟨⟨rfl, rfl, rfl, rfl⟩, fired_settled, by decide, by decide +kernel, by decide +kernel⟩

/-- HALTED with slot 1 ready. -/
def readyState : State := { restState .halted true with accum.ready := (Vector.replicate 24 false).set 1 true }

/-- The image of a state that shows nothing but reset values. -/
theorem readyState_mirrored : Mirrored (report readyState) := mirrored_report _

/-- For AdoptBegins, with the image as a report leaves it. -/
theorem witness_AdoptBegins :
    BusReady (report readyState) ∧ Mirrored (report readyState) ∧ (report readyState).seq.state = .halted ∧
    (report readyState).trace.bg = none ∧ (report readyState).accum.ready[(1 : SlotIx)] = true ∧
    (report readyState).accum.clippedContent[(1 : SlotIx)] = false ∧
    recAccBase (activeRecord (report readyState) 1) < 0x1000000 := by
  refine ⟨⟨?_, ?_, ?_, ?_⟩, mirrored_report _, ?_, ?_, ?_, ?_, ?_⟩ <;> (try unfold activeRecord) <;>
    simp only [report_frame] <;> decide +kernel

/-- That state with slot 1's accumulator clipped, under a policy. -/
def clippedState (stops : Bool) : State :=
  withHeader 0 (if stops then 0x40 else 0) { readyState with
    accum.clippedContent := (Vector.replicate 24 false).set 1 true }

/-- For AdoptBegins and CompareBegins where the accumulator holds a clipped record, under MASKED and STOPPING. -/
theorem witness_AdoptBegins_clipped (stops : Bool) :
    let s := report (clippedState stops)
    BusReady s ∧ Mirrored s ∧ s.seq.state = .halted ∧ s.trace.bg = none ∧ s.accum.ready[(1 : SlotIx)] = true ∧
    (s.accum.clippedContent[(1 : SlotIx)] && (headerStopping (activeHeader s)).clipped) = stops ∧
    s.accum.clippedContent[(1 : SlotIx)] = true ∧ recAccBase (activeRecord s 1) < 0x1000000 ∧
    recInjected (activeRecord s 1) ≠ 0 ∧ PlanSettled (clippedState stops) := by
  refine ⟨⟨?_, ?_, ?_, ?_⟩, mirrored_report _, ?_, ?_, ?_, ?_, ?_, ?_, ?_, ?_⟩
  case refine_12 =>
    refine .inr ⟨rfl, rfl, ?_⟩
    show ∀ k : SlotIx, (Vector.replicate 24 false)[k] = false
    decide
  all_goals (try unfold activeRecord); (try unfold activeHeader); simp only [report_frame]
  all_goals cases stops <;> decide +kernel

/-- For CompareBegins with an empty compare range: start 4, end 3. -/
theorem witness_CompareBegins_empty :
    let s : State := { restState .halted true with
      plan.activeCopy.records := planned.plan.activeCopy.records.set 1
        (planned.plan.activeCopy.records[1].set 6 0x00030004) }
    BusReady s ∧ s.seq.state = .halted ∧ s.trace.bg = none ∧ recInjected (activeRecord s 1) ≠ 0 ∧
    s.accum.clippedContent[(1 : SlotIx)] = false ∧ recCompareEnd (activeRecord s 1) = 3 ∧
    recCompareStart (activeRecord s 1) = 4 ∧ PlanSettled s :=
  ⟨⟨rfl, rfl, rfl, rfl⟩, rfl, rfl, by decide +kernel, by decide +kernel, by decide +kernel, by decide +kernel,
    .inr ⟨rfl, rfl, by
      show ∀ k : SlotIx, (Vector.replicate 24 false)[k] = false
      decide⟩⟩

/-- For CompareBegins. -/
theorem witness_CompareBegins :
    BusReady (restState .halted true) ∧ (restState .halted true).seq.state = .halted ∧
    (restState .halted true).trace.bg = none ∧ recInjected (activeRecord (restState .halted true) 1) ≠ 0 ∧
    (restState .halted true).accum.clippedContent[(1 : SlotIx)] = false ∧
    recCompareStart (activeRecord (restState .halted true) 1) ≤ recCompareEnd (activeRecord (restState .halted true) 1) ∧
    recAccBase (activeRecord (restState .halted true) 1) + 4 * recCompareStart (activeRecord (restState .halted true) 1)
      < 0x1000000 :=
  ⟨⟨rfl, rfl, rfl, rfl⟩, rfl, rfl, by decide +kernel, by decide +kernel, by decide +kernel, by decide +kernel⟩

/-- For MalformedCommands: codes at both ends, and a form with one enable clear. -/
theorem witness_MalformedCommands :
    BusReady quiet ∧ namedCode (byteOf 0x0F 0) = false ∧ namedCode (byteOf 0 0) = false ∧ (0x7#4 : Enables) ≠ 0xF#4 :=
  ⟨⟨rfl, rfl, rfl, rfl⟩, by decide, by decide, by decide⟩

/-- For PlanWriteMerges: in SWEEPING, and while an ADOPT runs. -/
theorem witness_PlanWriteMerges :
    BusReady fired ∧ fired.seq.state = .sweeping ∧
    BusReady { restState .halted true with trace.bg := some (background .adopt 0 none) } ∧
    deferring { restState .halted true with trace.bg := some (background .adopt 0 none) } = true :=
  ⟨⟨rfl, rfl, rfl, rfl⟩, rfl, ⟨rfl, rfl, rfl, rfl⟩, by decide +kernel⟩

/-- For PlanWriteMerges at rest: the highest ring base that fits and the next, with the ring empty and not, and a write
of the pair that stands. -/
theorem witness_PlanWriteMerges_ring :
    let s := planned
    let written (data : Word) := s.plan.pendingCopy.header.set 6 (mergeWord 0xF data s.plan.pendingCopy.header[6])
    let ends (h : Vector Word 32) := headerRingBase h + 16 * headerRingCapacity h
    BusReady s ∧ s.seq.state ≠ .sweeping ∧ s.seq.state ≠ .waiting ∧ deferring s = false ∧ holdFlag s = false ∧
    PlanSettled s ∧ TraceSettled s ∧ (0xF#4 : Enables) ≠ 0 ∧ occupancy s = 0 ∧ findingsWaiting s = 0 ∧
    (headerRingWritten (written 0xFFEF00) ≠ headerRingWritten (activeHeader s) ∧ ends (written 0xFFEF00) ≤ 0xFFF000) ∧
    (headerRingWritten (written 0xFFEF10) ≠ headerRingWritten (activeHeader s) ∧
      ¬ ends (written 0xFFEF10) ≤ 0xFFF000) ∧
    headerRingWritten (written 0) = headerRingWritten (activeHeader s) ∧
    occupancy { s with findings.post := 1 } ≠ 0 :=
  ⟨⟨rfl, rfl, rfl, rfl⟩, by decide, by decide, rfl, by decide +kernel, plan_settled rfl, free_settled rfl, by decide,
    by decide +kernel, by decide +kernel, by decide +kernel, by decide +kernel, by decide +kernel, by decide +kernel⟩

/-- For PlanWriteMerges at rest: the first and the last immediate word and zone word; the header words at the edges of
the immediate words and at both ends, in WAITING with the gate deasserted, or with it asserted and a mode TRIGGERED
written. -/
theorem witness_PlanWriteMerges_rest :
    let s := restState .waiting false
    let u := restState .waiting true
    BusReady s ∧ headerDue s = false ∧ s.plan.zonesDirty = false ∧ (∀ k : SlotIx, s.plan.recordDirty[k] = false) ∧
    (∀ i ∈ [(16 : Fin 32), 18], 16 ≤ i.val ∧ i.val ≤ 18) ∧ s.seq.state ≠ .sweeping ∧ deferring s = false ∧
    holdFlag s = false ∧ PlanSettled s ∧ TraceSettled s ∧ (0x1#4 : Enables) ≠ 0 ∧
    (∀ i ∈ [(0 : Fin 32), 15, 19, 31], i.val < 16 ∨ 18 < i.val) ∧ s.pins.gate = false ∧ u.pins.gate = true ∧
    headerMode (u.plan.pendingCopy.header.set 0 (mergeWord 0x1 2 u.plan.pendingCopy.header[0])) = .triggered :=
  ⟨⟨rfl, rfl, rfl, rfl⟩, by decide +kernel, rfl, by decide +kernel, by decide, by decide, rfl, by decide +kernel,
    plan_settled rfl, free_settled rfl, by decide, by decide, rfl, rfl, by decide +kernel⟩

/-- Hold set, with the header and the zones dirty, slot 0's record dirty with its shape kept and slot 23's with another
point count, and both slots ready and based. -/
def heldDirty : State :=
  let s := withHeader 16 1 (restState .idle true)
  { s with
    plan.pendingCopy.header := s.plan.activeCopy.header.set 3 0x1234
    plan.headerDirty := true
    plan.pendingCopy.zones := s.plan.pendingCopy.zones.set 127 5
    plan.zonesDirty := true
    plan.pendingCopy.records := (s.plan.activeCopy.records.set 0 (s.plan.activeCopy.records[0].set 9 7)).set 23
      (s.plan.activeCopy.records[23].set 1 0x200)
    plan.recordDirty := ((Vector.replicate 24 false).set 0 true).set 23 true
    accum.ready := Vector.replicate 24 true
    verdict.table := Vector.replicate 24 ⟨true, .unknown, 0, 0, false, none⟩ }

/-- For PlanWriteMerges where hold is cleared: every region dirty, one record with its shape kept and one changed. -/
theorem witness_PlanWriteMerges_hold :
    BusReady heldDirty ∧ heldDirty.seq.state ≠ .sweeping ∧ heldDirty.seq.state ≠ .waiting ∧ deferring heldDirty = false ∧
    TraceSettled heldDirty ∧ holdFlag heldDirty = true ∧ headerDue heldDirty = true ∧ heldDirty.plan.zonesDirty = true ∧
    (0x1#4 : Enables).getLsbD 0 = true ∧ (0xFFFFFFFE#32).getLsbD 0 = false ∧
    (heldDirty.plan.recordDirty[(0 : SlotIx)] = true ∧
      shapeOf heldDirty.plan.pendingCopy.records[(0 : SlotIx)] = shapeOf (activeRecord heldDirty 0)) ∧
    (heldDirty.plan.recordDirty[(23 : SlotIx)] = true ∧
      shapeOf heldDirty.plan.pendingCopy.records[(23 : SlotIx)] ≠ shapeOf (activeRecord heldDirty 23)) ∧
    heldDirty.plan.recordDirty[(22 : SlotIx)] = false :=
  ⟨⟨rfl, rfl, rfl, rfl⟩, by decide, by decide, rfl, free_settled rfl, by decide +kernel, by decide +kernel, rfl, by decide,
    by decide, by decide +kernel, by decide +kernel, by decide +kernel⟩

/-- A write that clears hold edits applies what waited: slot 23 loses its ready and based flags and slot 0 keeps them
(R10, R11, R15). -/
theorem test_hold_clear : ∃ t, exec (.planWrite 0x040 0x1 0) heldDirty = .next t ∧
    (t.accum.ready[(0 : SlotIx)] = true ∧ t.accum.ready[(23 : SlotIx)] = false) ∧
    recPoints (activeRecord t 23) = 0x200 :=
  ⟨_, rfl, by decide +kernel, by decide +kernel⟩

/-- For RecordWriteApplies: a write that keeps the shape, and one that changes it. -/
theorem witness_RecordWriteApplies :
    BusReady planned ∧ planned.seq.state ≠ .sweeping ∧ deferring planned = false ∧ holdFlag planned = false ∧
    PlanSettled planned ∧
    shapeOf ((Vector.replicate 16 0#32).set 9 5) = shapeOf (activeRecord planned 23) ∧
    shapeOf ((Vector.replicate 16 0#32).set 1 0x200) ≠ shapeOf (activeRecord planned 23) :=
  ⟨⟨rfl, rfl, rfl, rfl⟩, by decide, rfl, by decide +kernel, (firstSlotSettles .idle true).plan, by decide +kernel,
    by decide +kernel⟩

/-- For TakenIndexJudged: an index accepted at the ring fill, and one behind it. -/
theorem witness_TakenIndexJudged :
    let s : State := { planned with findings.post := 16, findings.taken := 2, findings.fill := 16 }
    BusReady s ∧ s.plan.ringPending = false ∧ (s.findings.post - 0#16).toNat ≤ s.findings.fill ∧
    (s.findings.post - 0#16).toNat + findingsWaiting s ≤ ringCapacity s ∧
    ¬ (s.findings.post - 0xFFFF#16).toNat ≤ s.findings.fill :=
  ⟨⟨rfl, rfl, rfl, rfl⟩, rfl, by decide +kernel, by decide +kernel, by decide +kernel⟩

/-- For TakenIndexJudged: a write that empties the ring with a ring pair pending that fits, and one that does not. -/
theorem witness_TakenIndexJudged_ring (fits : Bool) :
    let s : State := { planned with
      plan.ringPending := true
      plan.pendingCopy.header := planned.plan.pendingCopy.header.set 6 (if fits then 0xFFEF00 else 0xFFEF10)
      findings.post := 2
      findings.taken := 1
      findings.fill := 2 }
    let h := s.plan.pendingCopy.header
    BusReady s ∧ (s.findings.post - 2#16).toNat ≤ s.findings.fill ∧
    (s.findings.post - 2#16).toNat + findingsWaiting s ≤ ringCapacity s ∧ s.plan.ringPending = true ∧
    s.seq.state ≠ .sweeping ∧ holdFlag s = false ∧ deferring s = false ∧ (s.findings.post - 2#16).toNat = 0 ∧
    findingsWaiting s = 0 ∧ headerRingWritten h ≠ headerRingWritten (activeHeader s) ∧
    (headerRingBase h + 16 * headerRingCapacity h ≤ 0xFFF000 ↔ fits = true) := by
  refine ⟨⟨rfl, rfl, rfl, rfl⟩, ?_, ?_, rfl, ?_, ?_, rfl, ?_, ?_, ?_, ?_⟩ <;> cases fits <;> decide +kernel

/-- For MemoryAccessPasses: the last word a guard covers, the first it does not, and the last byte of memory. -/
theorem witness_MemoryAccessPasses :
    let s : State := { planned with path.guards := [⟨.run, 0, 0x1000, 256⟩] }
    BusReady s ∧ plainWriteAddress 0x13FC = true ∧ (0x1000 ≤ 0x13FC ∧ 0x13FC < 0x1000 + 4 * 256) ∧
    plainWriteAddress 0x1400 = true ∧ ¬ 0x1400 < 0x1000 + 4 * 256 ∧ (0xFFFFFF#25 : Addr).toNat < 0x1000000 :=
  ⟨⟨rfl, rfl, rfl, rfl⟩, by decide, by decide, by decide, by decide, by decide⟩

/-- For DiscardedAccesses and ViewWindowWritesDiscarded: the ends of the part-written areas and of the stray ranges, and
a view read in OFF. -/
theorem witness_DiscardedAccesses :
    BusReady quiet ∧ 0x900 ≤ (0x900#12).toNat ∧ (0xCDF#12).toNat < 0xCE0 ∧ strayAddress 0x1010000 = true ∧
    strayAddress 0x17FFFFF = true ∧ strayAddress 0x1FFFFFF = true ∧ quiet.seq.state = .off ∧ quiet.trace.bg = none :=
  ⟨⟨rfl, rfl, rfl, rfl⟩, by decide, by decide, by decide, by decide, by decide, rfl, rfl⟩

/-- A PASS request on a quiet part. -/
def passing (write : Bool) : State := { planned with path.pass := some ⟨0x1000, write, 0x5, 0x11223344⟩ }

/-- For PassGrantReachesMemory: a read and a write. -/
theorem witness_PassGrantReachesMemory (write : Bool) :
    EventReady (passing write) ∧ Memory.wf (passing write).mem = true ∧ (passing write).trace.view = none ∧
    (passing write).trace.bg = none ∧ (⟨0x1000, write, 0x5, 0x11223344⟩ : Access).word < 0x1000000 ∧
    decision (passing write) = some (.pass, 0) :=
  ⟨⟨rfl, rfl⟩, rfl, rfl, rfl, by cases write <;> decide, by cases write <;> decide +kernel⟩

/-- For ArbiterDecides: PASS with an engine at counts 7 and 8, an engine alone, and nothing; a grant not decided. -/
theorem witness_ArbiterDecides :
    (let s (n : Nat) : State := { State.reset with path.pass := some ⟨0, false, 0xF, 0⟩, path.passCount := n }
     firstEngine (s 7) = some .post ∧ (s 7).path.passCount < 8 ∧ 8 ≤ (s 8).path.passCount) ∧
    firstEngine State.reset = some .post ∧ State.reset.path.pass = none ∧ firstEngine planned = none ∧
    EventReady planned ∧ (∀ count, decision planned ≠ some (.trace, count)) :=
  ⟨by decide +kernel, by decide +kernel, rfl, by decide +kernel, ⟨rfl, rfl⟩, by
    intro count h
    have : decision planned = none := by decide +kernel
    rw [this] at h
    cases h⟩

/-- For OnlyGrantsChangeMemory and HeldInReset. -/
theorem witness_HeldInReset :
    ∃ t, (hardReset planned).pins.resetAsserted = true ∧ exec .passGrant (hardReset planned) = .next t ∧
      (∃ u, exec .hardReset planned = .next u) := ⟨_, rfl, rfl, _, rfl⟩

/-- For HeaderMatched: a header of the shot outstanding, one of the younger of two, and one of none. -/
theorem witness_HeaderMatched :
    BusReady fired ∧ Settled fired ∧ fired.seq.state ≠ .off ∧ fired.intake.framing = none ∧
    shootingSlot fired = some 0 ∧ fired.intake.outstanding = [shot0] ∧ shotSlot 0 = 0 ∧
    shotSource 0 = recSource (activeRecord fired 0) ∧ shot0.sequence = shotSequence 0 ∧
    (let s : State := { fired with intake.outstanding := [shot0, ⟨1, 1000, .b1⟩] }
     BusReady s ∧ shootingSlot s = some 0 ∧ shotSource 0x10000 = recSource (activeRecord s 0) ∧
     shot0.sequence ≠ shotSequence 0x10000 ∧ (1#16) = shotSequence 0x10000 ∧
     s.intake.failures + 1 ≠ headerFailureLimit (activeHeader s) ∧ Spaced s) ∧
    (∀ x ∈ fired.intake.outstanding, x.sequence ≠ shotSequence 0x70000) :=
  ⟨⟨rfl, rfl, rfl, rfl⟩, fired_settled, by decide, rfl, by decide +kernel, rfl, by decide, by decide +kernel,
    by decide, ⟨⟨rfl, rfl, rfl, rfl⟩, by decide +kernel, by decide +kernel, by decide, by decide, by decide +kernel,
      spaced_of rfl⟩, by decide +kernel⟩

/-- A record in progress goes no further by itself. -/
theorem framing_settled (next : Nat) (header : Word) : Settled (framing next header) :=
  ⟨fired_settled.1, fired_settled.2.1, idle_of rfl (free_settled rfl)⟩

/-- A header that truncates a record is matched before the report of the step: with the sequence of the shot that the
report fires it is stale (R68, R82). -/
theorem test_header_judged_before_report :
    (match exec (.headerWrite 0x70000) { framing 5 0 with opt.spacingTimer := none, opt.nextSeq := 7, pins.gate := true } with
     | .next t => t.intake.stray && t.intake.framing.isNone && t.intake.outstanding.map Shot.sequence == [7]
     | _ => false) = true := by
  decide +kernel

/-- For WordsTaken: the last sample word, and no record in progress. -/
theorem witness_WordsTaken :
    BusReady (framing 128 0) ∧ Settled (framing 128 0) ∧ (128#14) ≠ 0 ∧ (framing 128 0).seq.state ≠ .off ∧
    shootingSlot (framing 128 0) = some 0 ∧ (framing 128 0).intake.framing = some (frame 128 0x1234) ∧
    bufferAt (framing 128 0) (frame 128 0x1234).buffer = .filling ⟨0, []⟩ ∧
    (128#14).toNat = (frame 128 0x1234).next ∧ (frame 128 0x1234).next < (frame 128 0x1234).check ∧
    BusReady fired ∧ Settled fired ∧ fired.intake.framing = none ∧ BusReady quiet ∧ quiet.seq.state = .off ∧
    Settled quiet :=
  ⟨⟨rfl, rfl, rfl, rfl⟩, framing_settled _ _, by decide, by decide, by decide +kernel, rfl, rfl, by decide, by decide,
    ⟨rfl, rfl, rfl, rfl⟩, fired_settled, rfl, ⟨rfl, rfl, rfl, rfl⟩, rfl,
    by decide +kernel, by decide +kernel, idle_of rfl (free_settled rfl)⟩

/-- For RecordAccepted, of a clipped record under TAKE, with the engine free; and with an add in progress. -/
theorem witness_RecordAccepted :
    let s := framing 129 0x1000
    BusReady s ∧ Settled s ∧ s.seq.state ≠ .off ∧ shootingSlot s = some 0 ∧
    s.intake.framing = some (frame 129 0x1234) ∧ bufferAt s .b0 = .filling ⟨0x1000, []⟩ ∧ (129#14) ≠ 0 ∧
    (129#14).toNat = (frame 129 0x1234).next ∧ (frame 129 0x1234).next = (frame 129 0x1234).check ∧
    (0x1234#32).extractLsb' 0 16 = (frame 129 0x1234).crc ∧ shotClipped 0x1000 = true ∧
    (shotClipped 0x1000 && recRejectClipped (activeRecord s 0)) = false ∧ s.accum.queue = [] ∧ Spaced s ∧
    s.accum.add = none ∧ s.accum.lock[(0 : SlotIx)] = .free ∧ shotClipped 0 = false ∧
    ({ s with accum.add := some (adding .write 0 none) } : State).accum.add ≠ none :=
  ⟨⟨rfl, rfl, rfl, rfl⟩, framing_settled _ _, by decide, by decide +kernel, rfl, rfl, by decide, by decide, by decide,
    by decide, by decide, by decide +kernel, rfl, spaced_of rfl, rfl, by decide +kernel, by decide,
    by decide⟩

/-- For RecordRejected: an unexpected offset, a wrong check word, a clipped record under REJECT, and one failure below
and at the limit. -/
theorem witness_RecordRejected :
    let s := framing 129 0x1000
    BusReady s ∧ Settled s ∧ s.seq.state ≠ .off ∧ shootingSlot s = some 0 ∧
    s.intake.framing = some (frame 129 0x1234) ∧ s.seq.comp ≠ none ∧ Spaced s ∧
    (130#14).toNat ≠ (frame 129 0x1234).next ∧ (0x4321#32).extractLsb' 0 16 ≠ (frame 129 0x1234).crc ∧
    (0x1234#32).extractLsb' 0 16 = (frame 129 0x1234).crc ∧ shotClipped 0x1000 = true ∧
    recRejectClipped (record 0x20000001 0x1000 0x2000) = true ∧ (0x7#4 : Enables) ≠ 0xF#4 ∧
    s.intake.failures + 1 ≠ headerFailureLimit (activeHeader s) ∧
    (∀ x ∈ s.intake.outstanding, x.sequence = (frame 129 0x1234).sequence) ∧
    7 + 1 = headerFailureLimit (activeHeader s) :=
  ⟨⟨rfl, rfl, rfl, rfl⟩, framing_settled _ _, by decide, by decide +kernel, rfl, by decide, spaced_of rfl,
    by decide, by decide, by decide, by decide, by decide +kernel, by decide, by decide +kernel, by decide +kernel,
    by decide +kernel⟩

/-- For DeadlineLosesShot: below the failure limit, at it, and with no such shot. -/
theorem witness_DeadlineLosesShot :
    EventReady fired ∧ Settled fired ∧ shootingSlot fired = some 0 ∧
    fired.intake.outstanding.find? (fun y => y.sequence == 0) = some shot0 ∧ Spaced fired ∧
    fired.intake.failures + 1 ≠ headerFailureLimit (activeHeader fired) ∧
    ({ fired with intake.failures := 7 } : State).intake.failures + 1 = headerFailureLimit (activeHeader fired) ∧
    fired.seq.comp ≠ none ∧ fired.trace.view = none ∧ (∀ x ∈ fired.intake.outstanding, x.sequence ≠ 1) :=
  ⟨⟨rfl, rfl⟩, fired_settled, by decide +kernel, by decide +kernel, spaced_of rfl, by decide +kernel,
    by decide +kernel, by decide, rfl, by decide +kernel⟩

/-- An add in progress goes no further by itself. -/
theorem addState_settled (a : AddState) : Settled (addState a) :=
  ⟨fired_settled.1, fired_settled.2.1, idle_of rfl (free_settled rfl)⟩

/-- For AddPointGranted: a point read in ADD mode, a point written, and the last point, which reaches the target or
does not. -/
theorem witness_AddPointGranted :
    (∀ a, EventReady (addState a) ∧ Settled (addState a) ∧ (addState a).accum.add = some a) ∧
    decision (addState (adding .add 0 none)) = some (.accum, 0) ∧
    decision (addState (adding .write 254 none)) = some (.accum, 0) ∧
    decision (addState (adding .add 255 (some 0xFFFFFFFF))) = some (.accum, 0) ∧
    Memory.wf (addState (adding .add 0 none)).mem = true ∧
    addAddress (addState (adding .add 255 none)) (adding .add 255 none) = 0x13FC ∧
    254 + 1 < recPoints (activeRecord (addState (adding .write 254 none)) 0) ∧
    recPoints (activeRecord (addState (adding .add 255 none)) 0) ≤ 255 + 1 ∧
    shootingSlot (addState (adding .add 255 none)) = some 0 ∧ recTarget (activeRecord fired 0) = 2 :=
  ⟨fun a => ⟨⟨rfl, rfl⟩, addState_settled a, rfl⟩, by decide +kernel, by decide +kernel, by decide +kernel,
    by decide +kernel, by decide +kernel, by decide +kernel, by decide +kernel, by decide +kernel, by decide +kernel⟩

/-- For ComparePointGranted: the accumulator word of point 0, its baseline word, and the last point. -/
theorem witness_ComparePointGranted :
    (let b := background .compareRun 0 none
     EventReady (comparing b []) ∧ (comparing b []).trace.bg = some b ∧ decision (comparing b []) = some (.trace, 0) ∧
     laneCalls (comparing b []) = false ∧ sweepOver (comparing b []) = false ∧ accAddress b < 0x1000000 ∧
     baseAddress b < 0x1000000) ∧
    (let b := background .compareRun 3 (some 7)
     decision (comparing b []) = some (.trace, 0) ∧ saturatedPoint 7 (recDark b.record) b.shots = false ∧
     (readWord [] (baseAddress b)).toInt ≠ -2147483648 ∧ recCompareEnd b.record ≤ b.point ∧ b.op = .compareRun ∧
     (comparing b []).seq.comp = some ⟨b.slot, .comparing⟩) ∧
    (let b := background .compareRun 2 (some 7)
     b.point < recCompareEnd b.record ∧ accAddress b + 4 < 0x1000000) :=
  ⟨⟨⟨rfl, rfl⟩, rfl, by decide +kernel, by decide +kernel, by decide +kernel, by decide +kernel, by decide +kernel⟩,
    ⟨by decide +kernel, by decide +kernel, by decide +kernel, by decide +kernel, rfl, rfl⟩,
    ⟨by decide +kernel, by decide +kernel⟩⟩

/-- A COMPARE-COMMAND on slot 1 in HALTED, with memory given. -/
def commanded (b : Background) (mem : List Host.Cell) : State :=
  { restState .halted true with
    trace.bg := some { b with op := .compareCommand }
    mem := mem }

/-- For ComparePointGranted: the last point of a COMPARE-COMMAND. -/
theorem witness_ComparePointGranted_command :
    let b : Background := { background .compareRun 3 (some 7) with op := .compareCommand }
    let s := commanded b []
    EventReady s ∧ s.trace.view = none ∧ laneCalls s = false ∧ sweepOver s = false ∧ s.trace.bg = some b ∧
    decision s = some (.trace, 0) ∧ saturatedPoint 7 (recDark b.record) b.shots = false ∧
    (readWord s.mem (baseAddress b)).toInt ≠ -2147483648 ∧ recCompareEnd b.record ≤ b.point ∧
    s.seq.state ≠ .sweeping ∧ PlanSettled s :=
  ⟨⟨rfl, rfl⟩, rfl, rfl, rfl, rfl, by decide +kernel, by decide +kernel, by decide +kernel, by decide +kernel, by decide,
    plan_settled rfl⟩

/-- A comparison of slot 1 at point 1 with its accumulator word. -/
def conditionAt (acc : Word) (stopping : CondSet) : Background :=
  { background .compareRun 1 (some acc) with stopping := stopping }

/-- Memory in which the baseline word of point 1 is ABSENT, or a level. -/
def gapMemory (gap : Bool) : List Host.Cell := if gap then [(0x3007, 0x80)] else [(0x3004, 1)]

/-- For GapMet in comparisons: a GAP with the highest unsaturated word and a SATURATED with the lowest saturated one,
under STOPPING and MASKED, in a run and in a command, with the capture record invalid and valid. -/
theorem witness_GapMet (gap stops : Bool) :
    let c : Condition := if gap then .gap else .saturated
    let acc : Word := if gap then 131070 else 131071
    let b := conditionAt acc (if stops then ⟨true, true, false⟩ else CondSet.empty)
    let s := comparing b (gapMemory gap)
    let u := commanded b (gapMemory gap)
    let base := (readWord (gapMemory gap) (baseAddress b)).toInt
    let saturated := saturatedPoint acc (recDark b.record) b.shots
    ((EventReady s ∧ s.trace.view = none ∧ s.trace.bg = some b ∧ s.seq.comp = some ⟨b.slot, .comparing⟩ ∧
      EventReady u ∧ u.trace.view = none ∧ u.trace.bg = some { b with op := .compareCommand } ∧
      u.seq.state ≠ .sweeping ∧ PlanSettled u ∧ laneCalls u = false ∧ sweepOver u = false) ∧
     laneCalls s = false ∧ sweepOver s = false ∧ decision s = some (.trace, 0) ∧ decision u = some (.trace, 0) ∧
     baseAddress b < 0x1000000 ∧ b.raised.has c = false ∧ b.stopping.has c = stops ∧
     (c = .saturated ∧ saturated = true ∨ c = .gap ∧ saturated = false ∧ base = -2147483648) ∧
     (c = .saturated → base ≠ -2147483648) ∧ b.point < recCompareEnd b.record ∧ accAddress b + 4 < 0x1000000 ∧
     s.trace.capture = none) ∧
    ({ s with trace.capture := some ⟨.adopt, 0, 0, 0, .gap⟩ } : State).trace.capture ≠ none :=
  ⟨⟨⟨⟨rfl, rfl⟩, rfl, rfl, rfl, ⟨rfl, rfl⟩, rfl, rfl, nofun, plan_settled rfl, rfl, rfl⟩, by
    cases gap <;> cases stops <;> decide +kernel⟩, nofun⟩

/-- For GapMet: an ADOPT at a point of the compare range whose word is at the cap, under STOPPING and MASKED. -/
theorem witness_GapMet_adopt (stops : Bool) :
    let b : Background := { background .adopt 3 none with stopping := ⟨stops, false, false⟩ }
    let s : State := { restState .halted true with
      trace.bg := some b
      mem := [(0x140C, 0xFF), (0x140D, 0xFF), (0x140E, 0xFF), (0x140F, 0xFF)] }
    EventReady s ∧ s.trace.view = none ∧ s.trace.bg = some b ∧ s.seq.state ≠ .sweeping ∧ PlanSettled s ∧
    laneCalls s = false ∧ sweepOver s = false ∧ decision s = some (.trace, 0) ∧ accAddress b < 0x1000000 ∧
    baseAddress b < 0x1000000 ∧ recCompareStart b.record ≤ b.point ∧ b.point ≤ recCompareEnd b.record ∧
    b.raised.saturated = false ∧ saturatedPoint (readWord s.mem (accAddress b)) (recDark b.record) b.shots = true := by
  refine ⟨⟨rfl, rfl⟩, rfl, rfl, nofun, plan_settled rfl, rfl, rfl, ?_⟩
  cases stops <;> decide +kernel

/-- An ADOPT of slot 1. -/
def adopting (point : Nat) (acc : Option Word) : State :=
  { restState .halted true with trace.bg := some (background .adopt point acc) }

/-- An ADOPT of slot 1, its ready flag set. -/
def adoptingReady (point : Nat) (acc : Option Word) : State :=
  { adopting point acc with accum.ready := (Vector.replicate 24 false).set 1 true }

/-- For AdoptPointGranted: a fetch, a write, and the last write, with the slot's ready flag at each level. -/
theorem witness_AdoptPointGranted (ready : Bool) :
    let s (point : Nat) (acc : Option Word) := if ready then adoptingReady point acc else adopting point acc
    (EventReady (s 0 none) ∧ decision (s 0 none) = some (.trace, 0) ∧
      saturatedPoint (readWord [] (accAddress (background .adopt 0 none)))
        (recDark (background .adopt 0 none).record) 2 = false) ∧
    (∀ point ∈ [254, 255], decision (s point (some 4000)) = some (.trace, 0) ∧
      (s point (some 4000)).seq.state ≠ .sweeping ∧ Memory.wf (s point (some 4000)).mem = true ∧
      (s point (some 4000)).accum.ready[(1 : SlotIx)] = ready ∧
      (∀ j : SlotIx, inAccBuffer (s point (some 4000)) j (0x3000 + 4 * point) = false) ∧
      baseAddress (background .adopt point (some 4000)) = 0x3000 + 4 * point ∧
      accAddress (background .adopt point (some 4000)) + 4 < 0x1000000) ∧
    PlanSettled (s 255 (some 4000)) ∧ recPoints (background .adopt 255 (some 4000)).record ≤ 255 + 1 ∧
    254 + 1 < recPoints (background .adopt 254 (some 4000)).record := by
  cases ready
  all_goals exact ⟨⟨⟨rfl, rfl⟩, by decide +kernel, by decide +kernel⟩, by decide +kernel, plan_settled rfl,
    by decide +kernel, by decide +kernel⟩

/-- For AdoptPointGranted: an upstream write to the first and to the last word of the adopted slot's accumulator buffer,
with the first point's word not read, read and not written, and written. -/
theorem witness_AdoptPointGranted_snoop (last read second : Bool) :
    let a : Access := ⟨if last then 0x17FC else 0x1400, true, 0x1, 5⟩
    let b := background .adopt (if second then 1 else 0) (if read then some 4000 else none)
    let s : State := { adoptingReady (if second then 1 else 0) (if read then some 4000 else none) with path.pass := some a }
    (EventReady s ∧ s.trace.view = none ∧ s.seq.state ≠ .sweeping ∧ s.trace.bg = some b ∧ b.op = .adopt ∧
      s.path.pass = some a ∧ a.write = true ∧ PlanSettled s) ∧ Memory.wf s.mem = true ∧ decision s = some (.pass, 1) ∧
    a.be ≠ 0 ∧ a.word < 0x1000000 ∧ inAccBuffer s b.slot a.word = true ∧ s.accum.ready[b.slot] = true ∧
    ((b.acc ≠ none ∧ a.word = accAddress b) ↔ (read = true ∧ last = false ∧ second = false)) ∧
    baseAddress b < 0x1000000 := by
  refine ⟨⟨⟨rfl, rfl⟩, rfl, nofun, rfl, rfl, rfl, rfl, plan_settled rfl⟩, ?_⟩
  revert last read second
  decide +kernel

/-- An upstream write of the word that a point has read leaves the ADOPT its write (R126). -/
theorem test_adopt_late_write : ∃ t,
    exec .passGrant { adoptingReady 3 (some 4000) with path.pass := some ⟨0x140C, true, 0xF, 5⟩ } = .next t ∧
    t.trace.bg.isSome = true ∧ t.accum.ready[(1 : SlotIx)] = false :=
  ⟨_, rfl, by decide +kernel, by decide +kernel⟩

/-- That point is then written from the word read, and the ADOPT ends, its slot not based (R126). -/
theorem test_adopt_last_write : ∃ t, exec .traceGrant (adopting 3 (some 4000)) = .next t ∧
    readWord t.mem 0x300C = BitVec.ofInt 32 (level 4000 1 2) ∧ t.trace.bg = none ∧
    t.verdict.table[(1 : SlotIx)].based = false :=
  ⟨_, rfl, by decide +kernel, by decide +kernel, by decide +kernel⟩

/-- For FirstConfirmedRunDecides: LOW confirmed at once, then a WITHIN run the first after it, and a FLOOR run after an
unconfirmed WITHIN point. -/
theorem witness_FirstConfirmedRunDecides_afterLow :
    let low : ClassedPoint := ⟨.low, -5, 0⟩
    let within : ClassedPoint := ⟨.within, 0, 0⟩
    let floor : ClassedPoint := ⟨.floor, 0, 9⟩
    let anomaly := [low, low, within, within]
    let brk := [low, low, within, floor, floor]
    (NothingConfirmed 2 anomaly 0 ∧ Stretch 2 .low anomaly 0 ∧ Stretch 2 .within anomaly 2 ∧
      ∀ j < 2, 0 < j → ¬ Stretch 2 .within anomaly j ∧ ¬ Stretch 2 .floor anomaly j) ∧
    (NothingConfirmed 2 brk 0 ∧ Stretch 2 .low brk 0 ∧ Stretch 2 .floor brk 3 ∧ brk[3]? = some floor ∧
      ∀ j < 3, 0 < j → ¬ Stretch 2 .within brk j ∧ ¬ Stretch 2 .floor brk j) := by
  unfold NothingConfirmed Stretch
  refine ⟨⟨?_, ?_, ?_, ?_⟩, ?_, ?_, ?_, ?_, ?_⟩ <;> decide

/-- For FirstConfirmedRunDecides: nothing confirmed, HIGH after an unconfirmed FLOOR, FLOOR after HIGH, and LOW. -/
theorem witness_FirstConfirmedRunDecides :
    NothingConfirmed 2 [⟨.low, -5, 0⟩, ⟨.high, 5, 0⟩] 2 ∧
    (NothingConfirmed 2 [⟨.floor, 0, 9⟩, ⟨.high, 5, 0⟩, ⟨.high, 6, 0⟩] 1 ∧
      Stretch 2 .high [⟨.floor, 0, 9⟩, ⟨.high, 5, 0⟩, ⟨.high, 6, 0⟩] 1) ∧
    (NothingConfirmed 2 [⟨.high, 5, 0⟩, ⟨.floor, 0, 9⟩, ⟨.floor, 0, 9⟩] 1 ∧
      Stretch 2 .floor [⟨.high, 5, 0⟩, ⟨.floor, 0, 9⟩, ⟨.floor, 0, 9⟩] 1) ∧
    Stretch 1 .low [⟨.low, -5, 0⟩] 0 ∧
    (∀ m, 0 < m → ¬ Stretch 1 .within [⟨.low, -5, 0⟩] m ∧ ¬ Stretch 1 .floor [⟨.low, -5, 0⟩] m) := by
  refine ⟨?_, ⟨?_, ?_⟩, ⟨?_, ?_⟩, ?_, ?_⟩
  · unfold NothingConfirmed Stretch; decide
  · unfold NothingConfirmed Stretch; decide
  · unfold Stretch; decide
  · unfold NothingConfirmed Stretch; decide
  · unfold Stretch; decide
  · unfold Stretch; decide
  · intro m hm
    constructor <;> intro h <;> have := h.1 <;> simp at this <;> omega

/-- For ViewReadTaken: the last word, the first beyond the count, a held lock, no records, and a background operation
with the first word of its point asked for and granted. -/
theorem witness_ViewReadTaken :
    (let s := restState .idle true
     BusReady s ∧ s.trace.bg = none ∧ s.seq.state ≠ .off ∧
     (∀ p ∈ outputPoints (viewFields s) 256, (viewFields s).count ≤ p) ∧
     ¬ (∀ p ∈ outputPoints (viewFields s) 255, (viewFields s).count ≤ p) ∧
     s.accum.lock[(viewFields s).slot] = .free ∧ s.intake.accepted[(viewFields s).slot] = 0 ∧ s.accum.queue = [] ∧
     (addState (adding .write 0 none)).accum.lock[(viewFields s).slot] ≠ .free ∧
     ∀ w ∈ fetchPlan (viewFields s) 255, w.1 < 0x1000000) ∧
    ∀ fetched : Bool, let s := adopting 0 (if fetched then some 7 else none)
      BusReady s ∧ TraceSettled s :=
  ⟨⟨⟨rfl, rfl, rfl, rfl⟩, rfl, by decide, by decide +kernel, by decide +kernel, by decide +kernel, by decide +kernel, rfl,
    by decide +kernel, by decide +kernel⟩, fun fetched =>
      ⟨⟨rfl, rfl, rfl, rfl⟩, needs_settled rfl (by cases fetched <;> decide +kernel)⟩⟩

/-- For ViewFetchGranted: the first of two words, and the only word. -/
theorem witness_ViewFetchGranted :
    EventReady (viewing 2) ∧ TraceSettled (viewing 2) ∧ decision (viewing 2) = some (.viewFetch, 0) ∧
    (∀ w ∈ fetchPlan (fetching 2) 0, w.1 < 0x1000000) ∧ (fetchPlan (fetching 2) 0)[0]? = some (0x1000, 0) ∧
    0 + 1 < accWords (fetching 2) 0 ∧ decision (viewing 1) = some (.viewFetch, 0) ∧
    (fetchPlan (fetching 1) 0)[0]? = some (0x1000, 0) ∧ 0 + 1 = (fetching 1).bin ∧
    (viewing 1).accum.queue = [] :=
  ⟨⟨rfl, rfl⟩, free_settled rfl, by decide +kernel, by decide, by decide, by decide, by decide +kernel, by decide,
    by decide, rfl⟩

/-- A view read of word 127 in a format, with the last of its words asked for; memory and the words are given. -/
def answering (format : ViewFormat) (words : List Word) (mem : List Host.Cell) : State := { planned with
  mem := mem
  trace.view := some ⟨⟨0x1800000 + 4 * 127, false, 0xF, 0⟩,
    .fetching ⟨0, format, false, 0, 1, 1, 255, 0x1000, 0x2000, 0⟩ 2 words⟩
  accum.lock := (Vector.replicate 24 LockState.free).set 0 .viewing }

/-- For ViewFetchGranted, the last word of a read in each format: LINEAR and LEVEL, light and dark; PACKED, whose second
point lies beyond the count; DEVIATION, its first word, then a baseline word that is a level and one that is ABSENT. -/
theorem witness_ViewFetchGranted_formats :
    let fields (format : ViewFormat) : ViewFields := ⟨0, format, false, 0, 1, 1, 255, 0x1000, 0x2000, 0⟩
    let light : List Host.Cell := [(0x11FC, 9), (0x13F8, 9)]
    (∀ format words mem, EventReady (answering format words mem) ∧ TraceSettled (answering format words mem) ∧
      (answering format words mem).accum.queue = []) ∧
    (decision (answering .linear [] light) = some (.viewFetch, 0) ∧ (fetchPlan (fields .linear) 127)[0]? = some (0x11FC, 0) ∧
      0 + 1 = (fields .linear).bin ∧ readWord light 0x11FC = 9 ∧ readWord [] 0x11FC = 0) ∧
    (decision (answering .level [] light) = some (.viewFetch, 0) ∧ (fetchPlan (fields .level) 127)[0]? = some (0x11FC, 0)) ∧
    (decision (answering .packed [] light) = some (.viewFetch, 0) ∧ (fetchPlan (fields .packed) 127)[0]? = some (0x13F8, 0) ∧
      0 + 1 = (fetchPlan (fields .packed) 127).length ∧ 2 * 127 < (fields .packed).count ∧ ¬ 2 * 127 + 1 < (fields .packed).count) ∧
    (decision (answering .deviation [] light) = some (.viewFetch, 0) ∧
      (fetchPlan (fields .deviation) 127)[0]? = some (0x11FC, 0)) ∧
    (decision (answering .deviation [9] light) = some (.viewFetch, 0) ∧
      (fetchPlan (fields .deviation) 127)[1]?.map Prod.fst = some 0x21FC ∧ (readWord light 0x21FC).toInt ≠ -2147483648 ∧
      (readWord [(0x21FF, 0x80)] 0x21FC).toInt = -2147483648) ∧
    ∀ format ∈ [ViewFormat.linear, .level, .packed, .deviation], ∀ w ∈ fetchPlan (fields format) 127, w.1 < 0x1000000 :=
  ⟨fun _ _ _ => ⟨⟨rfl, rfl⟩, free_settled rfl, rfl⟩, by decide +kernel, by decide +kernel, by decide +kernel,
    by decide +kernel, by decide +kernel, by decide +kernel⟩

/-- One status word dirty. -/
def dirtyWord (i : Fin 224) : State := { planned with mirror.dirty := (Vector.replicate 224 false).set i true }

/-- For StatusWordPosted: the last word of the slot status entries. -/
theorem witness_StatusWordPosted :
    let s := dirtyWord 223
    EventReady s ∧ TraceIdle s ∧ Mirrored s ∧ Memory.wf s.mem = true ∧ decision s = some (.post, 0) ∧
    s.findings.queue = [] ∧ s.findings.resetCapture = 0 ∧ s.mirror.dirty[(223 : Fin 224)] = true ∧
    (∀ k : SlotIx, inAccBuffer s k (0xFFF900 + 4 * 223) = false ∧ inBaseBuffer s k (0xFFF900 + 4 * 223) = false) := by
  refine ⟨⟨rfl, rfl⟩, idle_of rfl (free_settled rfl), ?_, ?_, ?_, rfl, rfl, ?_, ?_⟩
  · unfold Mirrored; decide +kernel
  all_goals decide +kernel

/-- For RecordWordPosted: the last words of a finding, a capture record and a summary. -/
theorem witness_RecordWordPosted :
    (let s := lastWord (.finding finding) 3 0x8000
     EventReady s ∧ decision s = some (.post, 0) ∧ (recordWords (.finding finding))[3]? = some 0 ∧
     (∀ k : SlotIx, inAccBuffer s k (0x8000 + 12) = false ∧ inBaseBuffer s k (0x8000 + 12) = false)) ∧
    (let s := lastWord (.capture none true) 3 0xFFFC80
     EventReady s ∧ decision s = some (.post, 0) ∧ (recordWords (.capture none true))[3]? = some 0) ∧
    (let s := lastWord (.summary summary true) 15 0xFFFCA0
     EventReady s ∧ decision s = some (.post, 0) ∧ (recordWords (.summary summary true))[15]? = some 0) ∧
    TraceIdle (lastWord (.finding finding) 3 0x8000) :=
  ⟨⟨⟨rfl, rfl⟩, by decide +kernel, by decide +kernel, by decide +kernel⟩,
    ⟨⟨rfl, rfl⟩, by decide +kernel, by decide +kernel⟩, ⟨⟨rfl, rfl⟩, by decide +kernel, by decide +kernel⟩,
    idle_of rfl (free_settled rfl)⟩

/-- For RecordWordPosted: the first and the last word owed of the invalid capture record after a hard reset, over bytes
that the host wrote there. -/
theorem witness_RecordWordPosted_owed (last : Bool) :
    let n := if last then 1 else 4
    let a := 0xFFFC80 + 4 * (4 - n)
    let s : State := { quiet with findings.resetCapture := n, mem := [(a, 9)] }
    EventReady s ∧ TraceIdle s ∧ Mirrored s ∧ s.findings.queue = [] ∧ s.findings.resetCapture = n ∧ 0 < n ∧ n ≤ 4 ∧
    Memory.wf s.mem = true ∧ decision s = some (.post, 0) ∧ readWord s.mem a = 9 ∧
    ∀ k : SlotIx, inAccBuffer s k a = false ∧ inBaseBuffer s k a = false := by
  refine ⟨⟨rfl, rfl⟩, idle_of rfl (free_settled rfl), ?_, rfl, rfl, ?_, ?_, ?_⟩
  · unfold Mirrored
    cases last <;> decide +kernel
  all_goals revert last; decide +kernel

/-- For GateEndsSweep: with a slot in each lane, and with the comparison lane empty. -/
theorem witness_GateEndsSweep :
    let s : State := { fired with pins.gate := true }
    EventReady s ∧ s.trace.view = none ∧ TraceSettled s ∧ s.pins.gate = true ∧ s.seq.state = .sweeping ∧
    s.seq.quietEnd = false ∧ s.seq.acq = some ⟨0, .firing⟩ ∧ s.seq.comp = some ⟨1, .comparing⟩ ∧
    headerWarmHold (activeHeader s) ≠ 0 ∧ headerWarmHold (activeHeader (withHeader 3 0 s)) = 0 ∧
    ({ s with seq.comp := none } : State).seq.orderEnded = false :=
  ⟨⟨rfl, rfl⟩, rfl, free_settled rfl, rfl, rfl, rfl, rfl, rfl, by decide +kernel, by decide +kernel, rfl⟩

/-- Slot 0 in FIRING with nothing outstanding, and the lines at levels. -/
def firing (gate live : Bool) (spacing : Option Nat) : State := { lanesAt .firing with
  pins := ⟨gate, live, false, false⟩
  opt.spacingTimer := spacing }

/-- That slot can fire. -/
theorem firing_ready (gate live : Bool) (spacing : Option Nat) :
    FireReady 0 (firing gate live spacing) ∧ DutyLeft 0 (firing gate live spacing) :=
  ⟨⟨⟨rfl, rfl⟩, by show 0 < 2; decide, .inl rfl, by
      show 0 + 0 + 0 + 0 < recTarget (activeRecord planned 0)
      decide +kernel⟩, by
    show sourceGet (⟨0, 0, 0⟩ : Sources Nat) (recSource (activeRecord planned 0)) 0 <
      headerDutyLimit (activeHeader planned) (recSource (activeRecord planned 0))
    decide +kernel⟩

/-- For LiveLightActs: its assertion in FIRING, and its deassertion with a fire due. -/
theorem witness_LiveLightActs :
    EventReady fired ∧ fired.pins.liveLight = false ∧ shootingSlot fired = some 0 ∧ fired.seq.comp ≠ none ∧
    EventReady (firing true true none) ∧ (firing true true none).pins.liveLight = true ∧
    FireReady 0 (firing true true none) ∧ DutyLeft 0 (firing true true none) :=
  ⟨⟨rfl, rfl⟩, rfl, by decide +kernel, by decide, ⟨rfl, rfl⟩, rfl, firing_ready _ _ _⟩

/-- For LinesElsewhere: SWEEPING in SETTLING, where the gate's deassertion acts and nothing else does; and HALTED. -/
theorem witness_LinesElsewhere :
    EventReady (lanesAt .settling) ∧ Settled (lanesAt .settling) ∧ (lanesAt .settling).pins.gate = false ∧
    (lanesAt .settling).seq.state ≠ .waiting ∧ shootingSlot (lanesAt .settling) = none ∧
    (∀ l, (lanesAt .settling).seq.acq = some l → l.phase ≠ .firing) ∧
    (let s := restState .halted true
     EventReady s ∧ s.pins.gate = true ∧ s.seq.state ≠ .sweeping ∧ s.seq.state ≠ .waiting) ∧
    EventReady armed ∧ EdgeSense.falling ≠ headerTriggerEdge (activeHeader armed) :=
  ⟨⟨rfl, rfl⟩, ⟨by decide +kernel, by decide +kernel, idle_of rfl (free_settled rfl)⟩, rfl, by decide, by decide +kernel,
    by
      intro l h
      cases h
      decide,
    ⟨⟨rfl, rfl⟩, rfl, by decide, by decide⟩, ⟨rfl, rfl⟩, by decide +kernel⟩

/-- For ResetLine: reset asserted with no access waiting. -/
theorem witness_ResetLine : (hardReset planned).pins.resetAsserted = true ∧ (hardReset planned).path.waiting = [] :=
  ⟨rfl, rfl⟩

/-- For TimersExpire: every timer running in HALTED. -/
theorem witness_TimersExpire :
    let s : State := { restState .halted true with
      opt.settleTimer := some 20
      opt.warm := ⟨.cold, .cold, .warming⟩
      opt.warmUpTimer := some ⟨2, 500⟩
      opt.warmHoldTimer := some ⟨2, 5000⟩
      opt.spacingTimer := some 2
      opt.dutyTimer := some 1000 }
    EventReady s ∧ Settled s ∧ s.seq.acq = none ∧ s.opt.settleTimer ≠ none ∧ s.opt.warmUpTimer = some ⟨2, 500⟩ ∧
    s.opt.warmHoldTimer = some ⟨2, 5000⟩ ∧ s.opt.spacingTimer ≠ none ∧ s.opt.dutyTimer ≠ none ∧
    planned.opt.settleTimer = none :=
  ⟨⟨rfl, rfl⟩, ⟨by decide +kernel, by decide +kernel, idle_of rfl (free_settled rfl)⟩, rfl, by decide, rfl, rfl, by decide,
    by decide, rfl⟩

/-- Slot 0 in SETTLING with the gate asserted: the settle timer running or not, the source WARM or warming up, a duty
count, and the guard at a level. -/
def settling (unsettled warmed : Bool) (duty : Nat) (live : Bool) : State := { lanesAt .settling with
  opt := { (lanesAt .settling).opt with
    settled := !unsettled
    settleTimer := if unsettled then some 20 else none
    warm := ⟨if warmed then .warm else .warming, .cold, .cold⟩
    warmUpTimer := if warmed then none else some ⟨0, 500⟩
    dutyTimer := some 1000
    dutyCount := ⟨duty, 0, 0⟩
    spacingTimer := none }
  pins := ⟨true, live, false, false⟩ }

/-- For TimersExpire in a sweep: a slot in SETTLING whose settle timer and warm-up both run, so that either may expire
first; and a slot in FIRING with two shots outstanding as the spacing and the duty period run out. -/
theorem witness_TimersExpire_sweep :
    (let s := settling true false 0 false
     EventReady s ∧ Settled s ∧ s.seq.acq = some ⟨0, .settling⟩ ∧ warmOf s (recSource (activeRecord s 0)) ≠ .warm ∧
     s.opt.settleTimer ≠ none ∧ s.opt.settled = false ∧ s.opt.warmUpTimer = some ⟨0, 500⟩) ∧
    (let s : State := { firing true false (some 2) with
       intake.outstanding := [shot0, ⟨1, 1000, .b1⟩]
       intake.buffer0 := .reserved
       intake.buffer1 := .reserved
       opt.dutyTimer := some 1000 }
     EventReady s ∧ Settled s ∧ s.seq.acq = some ⟨0, .firing⟩ ∧ (∀ k, ¬ FireReady k s) ∧ s.opt.spacingTimer ≠ none ∧
     s.opt.dutyTimer ≠ none) :=
  ⟨⟨⟨rfl, rfl⟩, ⟨by decide +kernel, by decide +kernel, idle_of rfl (free_settled rfl)⟩, rfl, by decide +kernel, by decide,
    rfl, rfl⟩, ⟨rfl, rfl⟩, ⟨by decide +kernel, by decide +kernel, idle_of rfl (free_settled rfl)⟩, rfl,
    fun _ h => absurd h.room (by decide), by decide, by decide⟩

/-- For SettlingEnds: the settle timer last, and the warm-up last, with one shot of the duty left and none, and with the
guard asserted. -/
theorem witness_SettlingEnds (duty : Nat) (live : Bool) :
    (let s := settling true true duty live
     let u : State := { s with seq.acq := some ⟨0, .firing⟩, opt.settled := true, opt.settleTimer := none }
     EventReady s ∧ TraceIdle s ∧ s.seq.state = .sweeping ∧ s.seq.acq = some ⟨0, .settling⟩ ∧ s.opt.settleTimer ≠ none ∧
     warmOf s (recSource (activeRecord s 0)) = .warm ∧ (live = false → OnlyDutyStops 0 u) ∧
     (DutyLeft 0 u ↔ duty < 10000) ∧ s.pins.liveLight = live ∧ s.seq.comp ≠ none) ∧
    (let s := settling false false duty live
     let u : State := { s with
       seq.acq := some ⟨0, .firing⟩
       opt.warm := sourceSet s.opt.warm 0 .warm
       opt.warmUpTimer := none }
     EventReady s ∧ TraceIdle s ∧ s.opt.warmUpTimer = some ⟨0, 500⟩ ∧ recSource (activeRecord s 0) = 0 ∧
     s.opt.settled = true ∧ (live = false → OnlyDutyStops 0 u) ∧ (DutyLeft 0 u ↔ duty < 10000)) := by
  have hs : recSource (activeRecord planned 0) = 0 := by decide +kernel
  refine ⟨⟨⟨rfl, rfl⟩, idle_of rfl (free_settled rfl), rfl, rfl, nofun, ?_, fun h => ?_, dutyLeft_iff rfl rfl, rfl, nofun⟩,
    ⟨rfl, rfl⟩, idle_of rfl (free_settled rfl), rfl, hs, rfl, fun h => ?_, dutyLeft_iff rfl rfl⟩
  · show warmOf (settling true true duty live) (recSource (activeRecord planned 0)) = .warm
    rw [hs]
    rfl
  all_goals exact ⟨fireReady_of ⟨rfl, rfl⟩ rfl rfl rfl, rfl, rfl, h⟩

/-- For FiringTested: the spacing elapses with one shot of the duty left and none; and the duty period ends with a slot
in RESTING. -/
theorem witness_FiringTested (duty : Nat) :
    (let s : State := { firing true false (some 2) with opt.dutyCount := ⟨duty, 0, 0⟩ }
     EventReady s ∧ TraceIdle s ∧ s.opt.spacingTimer ≠ none ∧ OnlyDutyStops 0 { s with opt.spacingTimer := none } ∧
     (DutyLeft 0 s ↔ duty < 10000)) ∧
    (let s : State := { firing true false none with
       seq.acq := some ⟨0, .resting⟩
       opt.dutyCount := ⟨10000, 0, 0⟩
       opt.dutyTimer := some 1000 }
     EventReady s ∧ TraceIdle s ∧ s.seq.acq = some ⟨0, .resting⟩ ∧ s.opt.dutyTimer ≠ none ∧
     OnlyDutyStops 0 { s with
       seq.acq := some ⟨0, .firing⟩
       opt.dutyCount := ⟨0, 0, 0⟩
       opt.dutyTimer := some (headerDutyPeriod (activeHeader s)) } ∧
     0 < headerDutyLimit (activeHeader s) (recSource (activeRecord s 0))) :=
  ⟨⟨⟨rfl, rfl⟩, idle_of rfl (free_settled rfl), nofun, ⟨fireReady_of ⟨rfl, rfl⟩ rfl rfl rfl, rfl, rfl, rfl⟩,
    dutyLeft_iff rfl rfl⟩, ⟨rfl, rfl⟩, idle_of rfl (free_settled rfl), rfl, by decide,
    ⟨fireReady_of ⟨rfl, rfl⟩ rfl rfl rfl, rfl, rfl, rfl⟩, by decide +kernel⟩

/-- For ResultTaken: a first verdict with room and with none, and a verdict repeated. -/
theorem witness_ResultTaken :
    EventReady (posting .clear) ∧ TraceIdle (posting .clear) ∧
    (posting .clear).seq.comp = some ⟨1, .posting (result .clear)⟩ ∧ (posting .clear).seq.acq = some ⟨0, .firing⟩ ∧
    (∀ h, AcqPhase.firing ≠ .awaiting h) ∧ (posting .clear).verdict.judgements[(1 : SlotIx)] = .unpaired ∧
    (posting .clear).verdict.table[(1 : SlotIx)].kind ≠ .clear ∧
    occupancy (posting .clear) + findingsWaiting (posting .clear) < ringCapacity (posting .clear) ∧
    (let s : State := { posting .clear with findings.post := 16 }
     ¬ occupancy s + findingsWaiting s < ringCapacity s) ∧
    (let s : State := { posting .clear with
        verdict.table := Vector.replicate 24 ⟨true, .clear, 9, 0, true, none⟩ }
     recEvery (activeRecord s 1) = false ∧ s.verdict.table[(1 : SlotIx)].kind = .clear) :=
  ⟨⟨rfl, rfl⟩, idle_of rfl (free_settled rfl), rfl, rfl, (by
      intro h e
      cases e), by decide +kernel, by decide +kernel, by decide +kernel, by decide +kernel, by decide +kernel⟩

/-- Slot 0 in AWAITING COMPARE behind slot 1 in POSTING, based or not, with slot 2 next, enabled or not. -/
def awaiting (held : Held) (based next : Bool) : State := { posting .clear with
  seq := { (posting .clear).seq with acq := some ⟨0, .awaiting held⟩ }
  plan.activeCopy.records := planned.plan.activeCopy.records.set 2 (record (if next then 0x201 else 0x200) 0x1800 0x4000)
  verdict.table := (Vector.replicate 24 ⟨false, .unknown, 0, 0, false, none⟩).set 0 ⟨based, .unknown, 0, 0, false, none⟩ }

/-- For ResultTaken where a slot waits for the comparison lane: with each thing it may hold, based and not; with the
slot order ended, with a slot next that settles, and with the next slot disabled. -/
theorem witness_ResultTaken_move (held : Held) (based next : Bool) :
    let s := awaiting held based next
    EventReady s ∧ s.seq.comp = some ⟨1, .posting (result .clear)⟩ ∧ s.verdict.judgements[(1 : SlotIx)] = .unpaired ∧
    s.seq.state = .sweeping ∧ s.trace.view = none ∧ s.trace.bg = none ∧ s.seq.acq = some ⟨0, .awaiting held⟩ ∧
    s.verdict.table[(0 : SlotIx)].based = based ∧
    recCompareStart (activeRecord s 0) ≤ recCompareEnd (activeRecord s 0) ∧
    recAccBase (activeRecord s 0) + 4 * recCompareStart (activeRecord s 0) < 0x1000000 ∧
    s.seq.orderEnded = false ∧ s.seq.quietEnd = false ∧ s.seq.cursor = (2 : SlotIx).val ∧
    (next = true → NextSlotSettles 2 s) ∧
    (next = false → recEnable (activeRecord s 2) = false ∧ s.plan.recordDirty[(2 : SlotIx)] = false) ∧
    ({ s with seq.orderEnded := true } : State).seq.orderEnded = true ∧ headerWarmHold (activeHeader s) ≠ 0 ∧
    headerWarmHold (activeHeader (withHeader 3 0 s)) = 0 := by
  refine ⟨⟨rfl, rfl⟩, rfl, ?_, rfl, rfl, rfl, rfl, ?_, ?_, ?_, rfl, rfl, rfl, ?_, ?_, rfl, ?_, ?_⟩
  · show ((Vector.replicate 24 Judgement.notEntered).set 1 .unpaired)[(1 : SlotIx)] = .unpaired
    decide +kernel
  · cases based <;> rfl
  · show recCompareStart (awaiting .live false next).plan.activeCopy.records[(0 : SlotIx)] ≤
      recCompareEnd (awaiting .live false next).plan.activeCopy.records[(0 : SlotIx)]
    cases next <;> decide +kernel
  · show recAccBase (awaiting .live false next).plan.activeCopy.records[(0 : SlotIx)] +
      4 * recCompareStart (awaiting .live false next).plan.activeCopy.records[(0 : SlotIx)] < 0x1000000
    cases next <;> decide +kernel
  · rintro rfl
    refine ⟨.inr rfl, ?_, ?_, .inl ?_⟩
    · show recEnable (awaiting .live false true).plan.activeCopy.records[(2 : SlotIx)] = true
      decide +kernel
    · show planCheck (awaiting .live false true) 2 = true
      decide +kernel
    · show recPort (awaiting .live false true).plan.activeCopy.records[(2 : SlotIx)] ≠ (awaiting .live false true).opt.port
      decide +kernel
  · rintro rfl
    refine ⟨?_, rfl⟩
    show recEnable (awaiting .live false false).plan.activeCopy.records[(2 : SlotIx)] = false
    decide +kernel
  · show headerWarmHold planned.plan.activeCopy.header ≠ 0
    decide +kernel
  · show headerWarmHold (planned.plan.activeCopy.header.set 3 0) = 0
    decide +kernel

/-- Slot 0 in AWAITING COMPARE behind slot 1 in POSTING, the cursor given; the slot at the cursor enabled with an empty
compare range and slot 5 named as its partner, and slot 23 as given. -/
def failing (cursor : Nat) (h : cursor < 24) (last : Record16) : State :=
  let s := awaiting .live false false
  { s with
    seq.cursor := cursor
    plan.activeCopy.records := (planned.plan.activeCopy.records.set 23 last).set cursor
      (((record 0x201 0x8000 0x9000).set 6 0x00030004).set 7 0x00850100) }

/-- For ResultTaken where the slot at the cursor fails its plan check: the last slot; the last but one, with the last
one settling or disabled; each with a partner field that is not honoured; and a cursor of 24. -/
theorem witness_ResultTaken_planFault (on : Bool) :
    let s := failing 22 (by decide) (record (if on then 0x201 else 0x200) 0x1800 0x4000)
    let u := failing 23 (by decide) (record 0x201 0x1800 0x4000)
    (EventReady s ∧ s.seq.comp = some ⟨1, .posting (result .clear)⟩ ∧ s.seq.state = .sweeping ∧ s.trace.view = none ∧
      s.trace.bg = none ∧ s.seq.acq = some ⟨0, .awaiting .live⟩ ∧ s.seq.orderEnded = false ∧ s.seq.quietEnd = false ∧
      s.seq.cursor = (22 : SlotIx).val ∧ u.seq.cursor = (23 : SlotIx).val ∧
      ({ s with seq.cursor := 24 } : State).seq.cursor = 24) ∧
    s.verdict.judgements[(1 : SlotIx)] = .unpaired ∧
    (s.plan.recordDirty[(22 : SlotIx)] = false ∧ recEnable (activeRecord s 22) = true ∧ planCheck s 22 = false ∧
      recPartner (activeRecord s 22) = some 5 ∧ recPartner (activeRecord s 5) ≠ some 22) ∧
    (u.plan.recordDirty[(23 : SlotIx)] = false ∧ recEnable (activeRecord u 23) = true ∧ planCheck u 23 = false) ∧
    s.plan.recordDirty[(23 : SlotIx)] = false ∧ (on = false → recEnable (activeRecord s 23) = false) ∧
    (on = true → recEnable (activeRecord s 23) = true ∧ planCheck s 23 = true ∧
      recPort (activeRecord s 23) ≠ s.opt.port) := by
  refine ⟨⟨⟨rfl, rfl⟩, rfl, rfl, rfl, rfl, rfl, rfl, rfl, rfl, rfl, rfl⟩, ?_⟩
  revert on
  decide +kernel

/-- For ResultTaken where the accumulator of the slot that moves was clipped, under MASKED and STOPPING. -/
theorem witness_ResultTaken_clipped (stops : Bool) :
    let s := withHeader 0 (if stops then 0x40 else 0) { awaiting .accumulation true true with
      trace.clipNote := (Vector.replicate 24 false).set 0 true }
    (s.trace.clipNote[(0 : SlotIx)] && (headerStopping (activeHeader s)).clipped) = stops ∧ s.trace.capture = none := by
  cases stops <;> decide +kernel

/-- Slot 1 in POSTING, the last of the sweep, in a mode with the gate at a level. -/
def lastPosting (mode : SweepMode) (word0 : Word) (entered gate : Bool) : State := withHeader 0 word0 { posting .clear with
  seq := { (posting .clear).seq with acq := none, orderEnded := true, mode := mode, entered := entered }
  pins.gate := gate }

/-- For ResultTaken at the sweep's end: in each mode, with and without a slot entered, and with the gate at each level. -/
theorem witness_ResultTaken_complete (mode : SweepMode) (triggered entered gate : Bool) :
    let s := lastPosting mode (if triggered then 2 else 0) entered gate
    EventReady s ∧ TraceIdle s ∧ s.seq.comp = some ⟨1, .posting (result .clear)⟩ ∧
    s.verdict.judgements[(1 : SlotIx)] = .unpaired ∧ s.trace.view = none ∧ PlanSettled s ∧ s.seq.state = .sweeping ∧
    s.seq.acq = none ∧ s.seq.orderEnded = true ∧ s.seq.mode = mode ∧ s.seq.entered = entered ∧ s.pins.gate = gate ∧
    (headerMode (activeHeader s) = .triggered ↔ triggered = true) ∧ s.plan.ringFault = false ∧ NextSlotSettles 0 s := by
  refine ⟨⟨rfl, rfl⟩, idle_of rfl (free_settled rfl), rfl, ?_, rfl, .inr ⟨rfl, rfl, ?_⟩, rfl, rfl, rfl, rfl, rfl, rfl, ?_,
    rfl, .inr rfl, ?_, ?_, .inl ?_⟩
  · show ((Vector.replicate 24 Judgement.notEntered).set 1 .unpaired)[(1 : SlotIx)] = .unpaired
    decide +kernel
  · show ∀ k : SlotIx, (Vector.replicate 24 false)[k] = false
    decide
  · show headerMode (planned.plan.activeCopy.header.set 0 (if triggered then 2 else 0)) = .triggered ↔ triggered = true
    cases triggered <;> decide +kernel
  · show recEnable planned.plan.activeCopy.records[(0 : SlotIx)] = true
    decide +kernel
  · show planCheck (lastPosting .once (if triggered then 2 else 0) true true) 0 = true
    cases triggered <;> decide +kernel
  · show recPort planned.plan.activeCopy.records[(0 : SlotIx)] ≠ planned.opt.port
    decide +kernel

/-- For PairResolved: candidates at the edge of the pair tolerance, and different slots. -/
theorem witness_PairResolved :
    (⟨.lossCandidate, 4, -10, false, false⟩ : PairInput).kind = .lossCandidate ∧ 8 ≤ 4 + 4 ∧ ¬ 9 ≤ 4 + 4 ∧
    (0 : SlotIx) ≠ 1 := by decide

/-- Slot 1 in POSTING with a result, its partner slot 0 judged and with a pair input. -/
def pairPosting (kind : Kind) (partner : Judgement) (input : Option PairInput) : State := { posting kind with
  verdict.judgements := ((Vector.replicate 24 Judgement.notEntered).set 1 (.names 0)).set 0 partner
  verdict.inputs := (Vector.replicate 24 none).set 0 input }

/-- For PairResolved where a result with an honoured partner is taken: of every kind, with the partner yet to enter, the
pair formed or broken, and the partner's input absent, FINAL or PENDING. -/
theorem witness_PairResolved_taken (kind : Kind) (partner : Judgement) (input : Option PairInput) :
    let s := pairPosting kind partner input
    EventReady s ∧ TraceIdle s ∧ s.seq.comp = some ⟨1, .posting (result kind)⟩ ∧ s.seq.acq = some ⟨0, .firing⟩ ∧
    (∀ h, AcqPhase.firing ≠ .awaiting h) ∧ s.verdict.judgements[(1 : SlotIx)] = .names 0 ∧ (1 : SlotIx) ≠ 0 ∧
    s.verdict.judgements[(0 : SlotIx)] = partner ∧ s.verdict.inputs[(0 : SlotIx)] = input ∧
    (recSource (activeRecord s 0)).toNat < (recSource (activeRecord s 1)).toNat :=
  ⟨⟨rfl, rfl⟩, idle_of rfl (free_settled rfl), rfl, rfl, nofun, rfl, by decide, rfl, rfl, by
    show (recSource planned.plan.activeCopy.records[(0 : SlotIx)]).toNat <
      (recSource planned.plan.activeCopy.records[(1 : SlotIx)]).toNat
    decide +kernel⟩

/-- For LevelIsNearest: the lowest and the highest mean light, and an over-range point. -/
theorem witness_LevelIsNearest :
    (0 < 1 ∧ 0 < 16777200 ∧ 1 ≤ 65535 * 16777200 ∧ 16777200 ≤ 16777200 * 1) ∧
    (65535 ≤ 65535 * 1 ∧ 1 ≤ 16777200 * 65535) ∧ 65535 * (1 * 1) < 65536 := by decide

/-- For MarginsOfPoint: the last of two zones at its start, a point before every zone, and no zone. -/
theorem witness_MarginsOfPoint :
    (let zs : List Zone := [⟨2, 10, 20⟩, ⟨5, 30, 40⟩]
     zs[1]? = some ⟨5, 30, 40⟩ ∧ (⟨5, 30, 40⟩ : Zone).start ≤ 5 ∧
     (∀ (m : Nat) (w : Zone), 1 < m → zs[m]? = some w → 5 < w.start) ∧ ∀ w ∈ zs, 1 < w.start) ∧
    recFirstZone ((Vector.replicate 16 0#32).set 7 0x83F) + 0 < 64 ∧ 0 < recZoneCount ((Vector.replicate 16 0#32).set 7 0x83F) := by
  refine ⟨⟨rfl, by decide, ?_, by decide⟩, by decide +kernel, by decide +kernel⟩
  intro m w hm h
  have : m < 2 := (List.getElem?_eq_some_iff.1 h).1
  omega

/-- For MarginsOfPoint: each class at the edge of its test, for a dark point and one at level 1505, 5000 log10 2, under
floors of 1505 and 1506 and margins of 10 and 20. -/
theorem witness_MarginsOfPoint_class :
    let b (floor : Word) : Background := { background .compareCommand 2 none with
      record := (record 1 0x1000 0x2000).set 8 floor
      zones := [⟨0, 10, 20⟩] }
    let c (floor : Word) (acc base : Word) := classify (b floor) 2 acc base
    (c 1506 4 0x80000000 = .skip ∧ c 1506 0 0x80000000 = .skip) ∧
    (c 1506 4 1506 = .floor ∧ c 1506 0 1506 = .floor ∧ c 1506 0 1505 = .within) ∧
    (c 1505 4 1516 = .low ∧ c 1505 4 1515 = .within) ∧
    (c 1505 4 1484 = .high ∧ c 1505 4 1485 = .within) := by
  decide +kernel

end Sys2Proof.Tests
end

section
/-! PROOFS. The sweep plan: the ring capacity acted on, and where the entries of the ring lie (R4). -/

namespace Sys2Proof.Machine

/-! ### The largest power of two from 16 to 1,024 -/

theorem floorPower_of_lt_sixteen {n : Nat} (h : n < 16) : floorPower n = 16 :=
  if_pos (by omega)

theorem floorPower_of_ge_1024 {n : Nat} (h : 1024 ≤ n) : floorPower n = 1024 := by
  unfold floorPower
  iterate 6 rw [if_neg (by omega)]

/-- A value between two neighbouring powers of two, the lower one from 16 to 1,024, gives the lower one. -/
theorem floorPower_eq_two_pow {n k : Nat} (hk : 4 ≤ k) (hk' : k ≤ 10) (lo : 2 ^ k ≤ n) (hi : n < 2 ^ (k + 1)) :
    floorPower n = 2 ^ k := by
  unfold floorPower
  interval_cases k <;> split_ifs <;> omega

/-- The power below a value of the range is the one of its binary logarithm. -/
theorem floorPower_eq_two_pow_log {n : Nat} (lo : 16 ≤ n) (hi : n ≤ 1024) : floorPower n = 2 ^ Nat.log 2 n :=
  floorPower_eq_two_pow (Nat.le_log_of_pow_le (by decide) lo)
    (Nat.le_of_lt_succ (Nat.log_lt_of_lt_pow (by omega) (by omega)))
    (Nat.pow_log_le_self 2 (by omega)) (Nat.lt_pow_succ_log_self (by decide) n)

theorem floorPower_pos (n : Nat) : 0 < floorPower n := by
  rcases Nat.lt_or_ge n 16 with below | lo
  · rw [floorPower_of_lt_sixteen below]; decide
  rcases Nat.lt_or_ge 1024 n with above | hi
  · rw [floorPower_of_ge_1024 above.le]; decide
  · rw [floorPower_eq_two_pow_log lo hi]; exact Nat.two_pow_pos _

/-! ### The place of a finding in the ring -/

theorem ringCapacity_pos (s : State) : 0 < ringCapacity s := floorPower_pos _

/-- A finding is written at the entry its posting index names, modulo the ring capacity, 16 bytes to an entry. -/
theorem recordBase_finding (s : State) (f : Finding) : recordBase s (.finding f) =
    headerRingBase (activeHeader s) + s.findings.post.toNat % ringCapacity s * 16 := rfl

/-- Settles O25: the capacity by the three cases of R4, the place of an entry by its index being a remainder of the
capacity. -/
theorem ringCapacityActedOn : Obligations.RingCapacityActedOn := by
  refine ⟨fun h => ⟨floorPower_of_lt_sixteen, fun above => floorPower_of_ge_1024 above.le, fun lo hi => ?_⟩,
    fun s f => ?_⟩
  · have power : headerRingCapacity h = 2 ^ Nat.log 2 (field h[7] 0 16) := floorPower_eq_two_pow_log lo hi
    refine ⟨⟨_, power⟩, ?_, ?_⟩
    · rw [power]
      exact Nat.pow_log_le_self 2 (by omega)
    · rw [power, ← Nat.pow_succ']
      exact Nat.lt_pow_succ_log_self (by decide) _
  · have index : s.findings.post.toNat % ringCapacity s < ringCapacity s := Nat.mod_lt _ (ringCapacity_pos s)
    rw [recordBase_finding]
    refine ⟨Nat.le_add_right _ _, by omega, ?_⟩
    rw [Nat.add_sub_cancel_left]
    exact Nat.dvd_mul_left _ _

end Sys2Proof.Machine
end

section
/-! PROOFS. Levels: the integer nearest 5000 log10 of the mean light, and its bounds (R95, R96, R97). -/

namespace Sys2Proof.Machine

/-! ### The exact value, and the test of the search against it -/

/-- The exact value that the level of a mean light rounds (R97). -/
noncomputable def exactLevel (num den : Nat) : ℝ := 5000 * Real.logb 10 ((num : ℝ) / den)

/-- A greater mean light has the greater exact value. -/
theorem exactLevel_le_exactLevel {num den num' den' : Nat} (hnum : 0 < num) (hden : 0 < den) (hden' : 0 < den')
    (le : num * den' ≤ num' * den) : exactLevel num den ≤ exactLevel num' den' := by
  have ratio : (num : ℝ) / den ≤ (num' : ℝ) / den' := by
    rw [div_le_div_iff₀ (by positivity) (by positivity)]
    exact_mod_cast le
  exact mul_le_mul_of_nonneg_left (Real.logb_le_logb_of_le (by norm_num) (by positivity) ratio) (by norm_num)

/-- The two branches of the test state one inequality between powers, whatever the exponent's sign. -/
theorem levelAtLeast_iff_zpow (numPow denPow : Nat) (l : Int) :
    levelAtLeast numPow denPow l ↔ (10 : ℝ) ^ (2 * l - 1) * denPow ≤ numPow := by
  have of_nat (e : Nat) : (10 : ℝ) ^ (e : Int) = ((10 ^ e : Nat) : ℝ) := by push_cast; exact zpow_natCast _ _
  rcases le_or_gt 0 (2 * l - 1) with nonneg | neg
  · simp only [levelAtLeast, if_pos nonneg, decide_eq_true_eq]
    rw [← Int.toNat_of_nonneg nonneg, of_nat, mul_comm]
    exact_mod_cast Iff.rfl
  · simp only [levelAtLeast, if_neg neg.not_ge, decide_eq_true_eq]
    have exponent : 2 * l - 1 = -((-(2 * l - 1)).toNat : Int) := by omega
    rw [exponent, zpow_neg, of_nat, inv_mul_le_iff₀ (by positivity), mul_comm, neg_neg, Int.toNat_natCast]
    exact_mod_cast Iff.rfl

/-- The test of the search compares the exact value with the half below the level. -/
theorem levelAtLeast_iff {num den : Nat} (hnum : 0 < num) (hden : 0 < den) (l : Int) :
    levelAtLeast (num ^ 10000) (den ^ 10000) l ↔ (l : ℝ) - 1 / 2 ≤ exactLevel num den := by
  have powers : (10 : ℝ) ^ (2 * l - 1) ≤ ((num : ℝ) / den) ^ 10000 ↔
      ((2 * l - 1 : Int) : ℝ) ≤ 10000 * Real.logb 10 ((num : ℝ) / den) := by
    rw [← Real.rpow_intCast, ← Real.le_logb_iff_rpow_le (by norm_num) (by positivity), Real.logb_pow]
    norm_num
  rw [levelAtLeast_iff_zpow, Nat.cast_pow, Nat.cast_pow, ← le_div_iff₀ (by positivity), ← div_pow, powers, exactLevel]
  push_cast
  constructor <;> intro h <;> linarith

/-! ### The search -/

/-- The search keeps a place where the test holds below one where it fails, and ends with the two adjacent. -/
theorem levelSearch_spec {numPow denPow : Nat} (n : Nat) (lo : Int) (width : Nat) (pos : 0 < width)
    (rounds : width ≤ 2 ^ n) (holds : levelAtLeast numPow denPow lo) (fails : ¬ levelAtLeast numPow denPow (lo + width)) :
    let l := levelSearch numPow denPow n lo width
    levelAtLeast numPow denPow l ∧ ¬ levelAtLeast numPow denPow (l + 1) ∧ lo ≤ l ∧ l < lo + width := by
  induction n generalizing lo width with
  | zero =>
    obtain rfl : width = 1 := by omega
    exact ⟨holds, fails, le_rfl, Int.lt_succ lo⟩
  | succ n ih =>
    simp only [levelSearch]
    split_ifs with half middle
    · obtain rfl : width = 1 := by omega
      exact ⟨holds, fails, le_rfl, Int.lt_succ lo⟩
    · have sum : lo + (width / 2 : Nat) + (width - width / 2 : Nat) = lo + width := by omega
      obtain ⟨at_l, above, low, high⟩ :=
        ih (lo + (width / 2 : Nat)) (width - width / 2) (by omega) (by omega) middle (by rwa [sum])
      exact ⟨at_l, above, by omega, by omega⟩
    · obtain ⟨at_l, above, low, high⟩ := ih lo (width / 2) (by omega) (by omega) holds middle
      exact ⟨at_l, above, low, by omega⟩

/-! ### The level of a mean light from 1/16,777,200 to 65,535 -/

/-- A mean light of the range that R97 gives levels for, by its numerator and denominator. -/
structure LevelRange (num den : Nat) : Prop where
  num_pos : 0 < num
  den_pos : 0 < den
  high : num ≤ 65535 * den
  low : den ≤ 16777200 * num

/-- The search's start is at or below the level of the least mean light. -/
theorem levelAtLeast_lowest : levelAtLeast (1 ^ 10000) (16777200 ^ 10000) (-36124) := by decide +kernel

/-- The search's end is above the level of the greatest mean light. -/
theorem not_levelAtLeast_above_highest : ¬ levelAtLeast (65535 ^ 10000) (1 ^ 10000) 24083 := by decide +kernel

/-- The level lies within a half of the exact value, and in the range that the search starts from. -/
theorem levelOf_spec {num den : Nat} (mean : LevelRange num den) :
    (levelOf num den : ℝ) - 1 / 2 ≤ exactLevel num den ∧ exactLevel num den < levelOf num den + 1 / 2 ∧
      -36124 ≤ levelOf num den ∧ levelOf num den ≤ 24082 := by
  obtain ⟨hnum, hden, high, low⟩ := mean
  have holds : levelAtLeast (num ^ 10000) (den ^ 10000) (-36124) := by
    have lowest := (levelAtLeast_iff (by decide) (by decide) _).1 levelAtLeast_lowest
    have least_mean : exactLevel 1 16777200 ≤ exactLevel num den :=
      exactLevel_le_exactLevel (by decide) (by decide) hden (by omega)
    exact (levelAtLeast_iff hnum hden _).2 (lowest.trans least_mean)
  have fails : ¬ levelAtLeast (num ^ 10000) (den ^ 10000) 24083 := fun reached => by
    have reached := (levelAtLeast_iff hnum hden _).1 reached
    have greatest_mean : exactLevel num den ≤ exactLevel 65535 1 :=
      exactLevel_le_exactLevel hnum hden (by decide) (by omega)
    exact not_levelAtLeast_above_highest
      ((levelAtLeast_iff (by decide) (by decide) _).2 (reached.trans greatest_mean))
  obtain ⟨at_l, above, least, most⟩ := levelSearch_spec 17 (-36124) 60207 (by decide) (by decide) holds fails
  rw [levelAtLeast_iff hnum hden] at at_l above
  push_cast at above
  exact ⟨at_l, by rw [levelOf]; linarith, least, Int.le_of_lt_add_one most⟩

/-- A greater mean light has no lesser level. -/
theorem levelOf_le_levelOf {num den num' den' : Nat} (mean : LevelRange num den) (mean' : LevelRange num' den')
    (le : num * den' ≤ num' * den) : levelOf num den ≤ levelOf num' den' := by
  obtain ⟨at_l, -, -, -⟩ := levelOf_spec mean
  obtain ⟨-, below, -, -⟩ := levelOf_spec mean'
  have exact_le := exactLevel_le_exactLevel mean.num_pos mean.den_pos mean'.den_pos le
  have near : (levelOf num den : ℝ) < levelOf num' den' + 1 := by linarith
  exact Int.le_of_lt_add_one (by exact_mod_cast near)

/-- No mean light lies halfway between two levels: its 5,000th power would be the square root of an odd power of 10,
and the square root of 10 is irrational. -/
theorem exactLevel_ne_half {num den : Nat} (hnum : 0 < num) (hden : 0 < den) (n : Int) :
    exactLevel num den ≠ n + 1 / 2 := by
  intro half
  have power : ((num : ℝ) / den) ^ 5000 = 10 ^ n * √10 := by
    rw [← Real.rpow_intCast, Real.sqrt_eq_rpow, ← Real.rpow_add (by norm_num), ← half, exactLevel,
      ← Real.rpow_natCast, mul_comm, Real.rpow_mul (by norm_num), Real.rpow_logb (by norm_num) (by norm_num) (by positivity)]
    norm_num
  have irrational : Irrational √(10 : ℝ) := irrational_sqrt_ofNat_iff.2 (by decide +kernel)
  refine irrational ⟨((num : ℚ) / den) ^ 5000 / 10 ^ n, ?_⟩
  push_cast
  rw [power, mul_div_cancel_left₀ _ (by positivity)]

/-! ### The level of a light sum -/

/-- An over-range light sum has the level of 65,535, and any other the level of its mean (R96). -/
theorem level_eq (d b shots : Nat) :
    level d b shots = if 65535 * (b * shots) < d then levelOf 65535 1 else levelOf d (b * shots) := by
  rw [level, meanLight]
  split_ifs <;> rfl

theorem levelOf_highest : levelOf 65535 1 = 24082 := by decide +kernel

theorem levelOf_lowest_point : levelOf 1 1048575 = -30103 := by decide +kernel

/-- The level of a single point with light lies from that of one count in 1,048,575 shots to the greatest. -/
theorem level_point_bounds {d shots : Nat} (hd : 0 < d) (hs : 0 < shots) (most : shots ≤ 1048575) :
    -30103 ≤ level d 1 shots ∧ level d 1 shots ≤ 24082 := by
  rw [level_eq, one_mul]
  split_ifs with overRange
  · rw [levelOf_highest]; decide
  · have mean : LevelRange d shots := ⟨hd, hs, by omega, by omega⟩
    have least : LevelRange 1 1048575 := ⟨by decide, by decide, by decide, by decide⟩
    obtain ⟨-, -, -, upper⟩ := levelOf_spec mean
    have lower : levelOf 1 1048575 ≤ levelOf d shots := levelOf_le_levelOf least mean (by omega)
    exact ⟨levelOf_lowest_point ▸ lower, upper⟩

/-- Settles O58: the search finds the exact value's nearest integer, which no half makes ambiguous; the bounds are the
search's range, and a point's lower bound the level of the least mean light of a point. -/
theorem levelIsNearest : Obligations.LevelIsNearest := by
  refine ⟨fun num den hnum hden high low => ?_, fun num den hnum hden => exactLevel_ne_half hnum hden, level_eq,
    fun d shots => level_point_bounds, levelOf_highest, ?_⟩
  · obtain ⟨lower, upper, least, most⟩ := levelOf_spec ⟨hnum, hden, high, low⟩
    rw [exactLevel] at lower upper
    exact ⟨abs_le.2 ⟨by linarith, by linarith⟩, least, most⟩
  · exact ⟨by decide +kernel, levelOf_lowest_point, by decide +kernel⟩

end Sys2Proof.Machine
end

section
/-! PROOFS. The notices: the terms of the ALERT line, and the line after a hard reset (R154). -/

namespace Sys2Proof.Machine

/-- The line's three terms, each an enable of the active header and what it lets through. -/
theorem alertLine_iff (s : State) : alertLine s = true ↔
    (headerFindingsEnable (activeHeader s) = true ∧ 0 < occupancy s) ∨
    (headerSweepEndEnable (activeHeader s) = true ∧ s.findings.sweepEndNotice = true) ∨
    (headerCaptureEnable (activeHeader s) = true ∧ s.findings.captureNotice = true) := by
  simp only [alertLine, Bool.or_eq_true, Bool.and_eq_true, bne_iff_ne, Nat.pos_iff_ne_zero, or_assoc]

/-- With an empty ring and no notice pending the line is deasserted, whatever the enables are. -/
theorem alertLine_eq_false {s : State} (ring : occupancy s = 0) (sweepEnd : s.findings.sweepEndNotice = false)
    (capture : s.findings.captureNotice = false) : alertLine s = false := by
  rw [← Bool.not_eq_true, alertLine_iff]
  rintro (⟨-, waiting⟩ | ⟨-, pending⟩ | ⟨-, pending⟩)
  · exact waiting.ne' ring
  · exact Bool.false_ne_true (sweepEnd.symm.trans pending)
  · exact Bool.false_ne_true (capture.symm.trans pending)

@[simp] theorem hardReset_findings (s : State) : (hardReset s).findings = FindingsState.reset := rfl

theorem hardReset_occupancy (s : State) : occupancy (hardReset s) = 0 := by
  rw [occupancy, hardReset_findings]
  decide

/-- Settles O48: the terms by the line's definition; a hard reset sets all three enables, and it empties the ring and
clears both notices. -/
theorem alertLineFollows : Obligations.AlertLineFollows := by
  refine ⟨alertLine_iff, fun s t reset => ?_⟩
  obtain rfl : hardReset s = t := Host.Outcome.next.inj reset
  exact alertLine_eq_false (hardReset_occupancy s) rfl rfl

end Sys2Proof.Machine
end

section
/-! PROOFS. The view window: a write is discarded, a read makes no PASS request, and in OFF it is answered with 0 (R162,
R165). -/

namespace Sys2Proof.Machine

/-! ### The class of a view-window access, and where it is taken (R162, R165, R167) -/

/-- Every offset of the view window is classed as the view window. -/
theorem classOf_viewAddress (offset : BitVec 16) (write : Bool) (be : Enables) (data : Word) :
    classOf (⟨viewAddress offset, write, be, data⟩ : Access).word = .viewWindow :=
  List.mem_singleton.1 (Laws.WellFormedOperands.inViewWindow offset write be data)

/-- A write of the view window is discarded. -/
theorem present_viewWrite {s : State} (h : BusReady s) (offset : BitVec 16) (be : Enables) (data : Word) :
    present ⟨viewAddress offset, true, be, data⟩ s = report s := by
  simp [present_ready h, takeAccess, takeWrite, classOf_viewAddress]

/-- A read of the view window arrives at the Trace Engine. -/
theorem present_viewRead {s : State} (h : BusReady s) (offset : BitVec 16) (be : Enables) :
    present ⟨viewAddress offset, false, be, 0⟩ s = report (arriveView ⟨viewAddress offset, false, be, 0⟩ s) := by
  simp [present_ready h, takeAccess, takeRead, classOf_viewAddress]

/-! ### The read in OFF (R162 step 2) -/

/-- An answer that no conversion clamped changes the read data alone, where no read was held. -/
theorem answerView_exact {s : State} (noView : s.trace.view = none) (w : Word) :
    answerView (w, false) s = { s with path.readData := w } := by
  rw [answerView, Bool.or_false, ← noView]

/-- With no background operation a read is taken up as it arrives. -/
theorem arriveView_noBackground {s : State} (noBg : s.trace.bg = none) (a : Access) :
    arriveView a s = takeUpView a s := by
  simp [arriveView, noBg]

/-- In OFF a read that is taken up is answered with 0. -/
theorem takeUpView_off {s : State} (off : s.seq.state = .off) (a : Access) :
    takeUpView a s = answerView (0, false) s :=
  if_pos off

/-- Settles O29: the address alone makes an access of the window the view window's, so that a write reaches nobody and a
read the Trace Engine alone, which leaves the PASS request as it was. -/
theorem viewWindowWritesDiscarded : Obligations.ViewWindowWritesDiscarded := by
  intro offset be s ready
  have read : exec (.viewRead offset be) s =
      .next (report (arriveView ⟨viewAddress offset, false, be, 0⟩ s)) :=
    congrArg Host.Outcome.next (present_viewRead ready offset be)
  refine ⟨fun data => congrArg Host.Outcome.next (present_viewWrite ready offset be data), ⟨_, read, ?_⟩,
    fun off noBg => ?_⟩
  · simp [ready.noPass]
  · rw [read, arriveView_noBackground noBg, takeUpView_off off, answerView_exact ready.noView]

end Sys2Proof.Machine
end

section
/-! PROOFS. What every step keeps: the queue of waiting commands, the canonical form of memory, the status image and the
consecutive-PASS count (R156, R173; log entries 1, 2, 5, 24). -/

namespace Sys2Proof.Machine

/-! ### The step and the queue -/

/-- Settles O1: both clauses are the two branches of `step`. -/
theorem stepRunsFrontCommand : Obligations.StepRunsFrontCommand :=
  ⟨fun _ _ _ => rfl, fun _ => rfl⟩

/-- A grant keeps the commands waiting where the requester's work keeps them. -/
theorem granted_pending (r : Requester) {f : State → State} (hf : ∀ u, (f u).pending = u.pending) (s : State) :
    (granted r f s).pending = s.pending := by
  obtain hg | ⟨n, -, hg⟩ := granted_cases r f s
  · rw [hg]
  · rw [hg, hf]

/-- Settles O2: every row presents an access or lets an event happen, and neither touches the queue. -/
theorem everyCommandAnswers : Obligations.EveryCommandAnswers := by
  intro c s
  cases c <;> refine ⟨_, rfl, ?_⟩
  case passGrant => exact happen_pending (granted_pending .pass (by simp) s)
  case accumGrant => exact happen_pending (granted_pending .accum (by simp) s)
  case traceGrant => exact happen_pending (granted_pending .trace (by simp) s)
  case viewFetchGrant => exact happen_pending (granted_pending .viewFetch (by simp) s)
  case postGrant => exact happen_pending (granted_pending .post (by simp) s)
  case quietHoursGateAsserted =>
    split
    · rfl
    · rw [happen_pending] <;> simp
  case quietHoursGateDeasserted =>
    split
    · rw [happen_pending] <;> simp
    · rfl
  case liveLightGuardAsserted =>
    split
    · rfl
    · rw [happen_pending] <;> simp
  case liveLightGuardDeasserted =>
    split
    · rw [happen_pending] <;> simp
    · rfl
  case triggerEdge => rw [happen_pending] <;> simp
  case hardReset => rfl
  case resetDeasserted =>
    split
    · exact happen_pending rfl
    · rfl
  case settleTimerExpiry => exact happen_pending (by simp)
  case warmUpExpiry => exact happen_pending (by simp)
  case warmHoldExpiry => exact happen_pending (by simp)
  case dutyPeriodEnd => exact happen_pending (by simp)
  case shotSpacingExpiry => exact happen_pending (by simp)
  case shotDeadlineExpiry => exact happen_pending (by simp)
  case takeResult => exact happen_pending (by simp)
  all_goals simp

/-! ### The canonical form of memory (log entry 5) -/

/-- The writes of the part's own engines write their word and no other byte. -/
@[simp] theorem ownWrite_mem (a : Nat) (w : Word) (ownAcc ownBase : Option SlotIx) (s : State) :
    (ownWrite a w ownAcc ownBase s).mem = writeWord s.mem a 0xF#4 w := by
  unfold ownWrite
  split <;> simp

/-- A PASS grant writes the standing write's word, or nothing. -/
theorem passGranted_mem (s : State) :
    (passGranted s).mem = s.mem ∨ ∃ a : Access, (passGranted s).mem = writeWord s.mem a.word a.be a.data := by
  unfold passGranted
  split
  · rename_i a _
    dsimp only
    split
    · refine .inr ⟨a, ?_⟩
      split <;> simp
    · exact .inl (by simp)
  · exact .inl rfl

/-- An ACCUM grant writes a word, or nothing. -/
theorem accumGranted_mem (s : State) :
    (accumGranted s).mem = s.mem ∨ ∃ a w, (accumGranted s).mem = writeWord s.mem a 0xF#4 w := by
  unfold accumGranted
  split
  · rename_i a _
    unfold addWordGranted
    split
    · exact .inl (by simp)
    · exact .inr ⟨_, _, by simp; rfl⟩
  · exact .inl rfl

/-- An ADOPT's write-back writes its word. -/
theorem adoptWrite_mem (b : Background) (s : State) :
    (adoptWrite b s).mem = writeWord s.mem (baseAddress b) 0xF#4 (adoptWord b (pointAcc b)) := by
  unfold adoptWrite
  dsimp only
  split_ifs <;> simp

/-- A TRACE grant writes a word, or nothing. -/
theorem traceGranted_mem (s : State) :
    (traceGranted s).mem = s.mem ∨ ∃ a w, (traceGranted s).mem = writeWord s.mem a 0xF#4 w := by
  unfold traceGranted
  split
  · rename_i b _
    simp only [advance_frame]
    unfold traceWordGranted
    split
    · refine .inl ?_
      split_ifs <;> simp
    · exact .inl (by simp)
    · exact .inr ⟨_, _, adoptWrite_mem b s⟩
    · exact .inl rfl
  · exact .inl rfl

/-- A POST grant of a record writes the record's next word. -/
theorem postRecordWord_mem (r : QRecord) (rest : List QRecord) (s : State) :
    (postRecordWord r rest s).mem = writeWord s.mem
      ((if s.findings.headWord = 0 then recordBase s r else s.findings.headBase) + 4 * s.findings.headWord) 0xF#4
      ((recordWords r).getD s.findings.headWord 0#32) := by
  unfold postRecordWord
  dsimp only
  split <;> simp

/-- A POST grant writes a word, or nothing. -/
theorem postGranted_mem (s : State) :
    (postGranted s).mem = s.mem ∨ ∃ a w, (postGranted s).mem = writeWord s.mem a 0xF#4 w := by
  unfold postGranted
  simp only [runTrace_frame]
  unfold postWord
  split
  · exact .inr ⟨_, _, postRecordWord_mem _ _ _⟩
  · split
    · exact .inr ⟨_, _, ownWrite_mem _ _ _ _ _⟩
    · split
      · exact .inr ⟨_, _, ownWrite_mem _ _ _ _ _⟩
      · exact .inl rfl

/-- A memory that is as it was or has one word written keeps the canonical form. -/
theorem wf_of_written {m m' : List Host.Cell} (h : Memory.wf m = true)
    (hw : m' = m ∨ ∃ a w, m' = writeWord m a 0xF#4 w) : Memory.wf m' = true := by
  obtain rfl | ⟨a, w, rfl⟩ := hw
  · exact h
  · exact wf_writeWord h _ _ _

/-- What a command is made of keeps the canonical form: memory is left alone but by the four grants that write. -/
theorem kept_canonical : Kept fun s => Memory.wf s.mem = true where
  pending _ _ h := h
  waiting _ _ h := h
  count _ _ _ h := h
  pins _ _ h := h
  reset _ h := h
  report _ h := by simpa using h
  access _ _ h := by simpa using h
  pass s h := by
    simp only [report_frame]
    obtain e | ⟨a, e⟩ := passGranted_mem s
    · rwa [e]
    · rw [e]
      exact wf_writeWord h _ _ _
  accum s h := wf_of_written h (by simpa using accumGranted_mem s)
  trace s h := wf_of_written h (by simpa using traceGranted_mem s)
  viewFetch _ h := by simpa using h
  post s h := wf_of_written h (by simpa using postGranted_mem s)
  gateOn _ h := by simpa using h
  gateOff _ h := by simpa using h
  guard _ h := by simpa using h
  fire _ h := by simpa using h
  edge _ _ h := by simpa using h
  settle _ h := by simpa using h
  warmUp _ h := by simpa using h
  warmHold _ h := by simpa using h
  duty _ h := by simpa using h
  spacing _ h := by simpa using h
  deadline _ _ h := by simpa using h
  result _ h := by simpa using h

/-- Settles O3: the four grants that write keep the form word by word, and nothing else writes. -/
theorem memoryStaysCanonical : Obligations.MemoryStaysCanonical :=
  fun _ _ h ht => kept_canonical.step h ht

/-! ### The status image (R156) -/

/-- The contents after a hard reset are those of the reset state. -/
theorem statusWord_hardReset (s : State) (i : Nat) : statusWord (hardReset s) i = statusWord State.reset i := rfl

/-- The general part shows 0 after a reset but for the selected port, 63 (R177). -/
theorem generalWord_reset (i : Nat) : generalWord State.reset i = if i = 6 then 63#32 else 0#32 := by
  unfold generalWord
  split <;> [rfl; rfl; rfl; rfl; rfl; rfl; rfl; rfl; rfl; exact (if_neg ‹_›).symm]

/-- The slot status entries show 0 after a reset (R177). -/
theorem slotWord_reset (k : SlotIx) (w : Nat) : slotWord State.reset k w = 0#32 := by
  unfold slotWord
  split <;> simp [State.reset, SequencerState.reset, AccumState.reset, VerdictState.reset, PlanState.reset,
    TraceState.reset, IntakeState.reset, slotPhaseCode, CondSet.empty, place, placeBit, outcomeCode, rejectCode,
    kindCode]

/-- The reset image shows the reset contents. -/
theorem mirrored_reset : Mirrored State.reset := by
  refine Vector.ext fun i hi => ?_
  simp only [State.reset, MirrorState.reset, Vector.getElem_ofFn, Vector.getElem_set, Vector.getElem_replicate]
  change (if 6 = i then 63#32 else 0#32) = statusWord State.reset i
  unfold statusWord
  split_ifs <;> simp_all [generalWord_reset, slotWord_reset] <;> omega

/-- A hard reset leaves the image showing the contents. -/
theorem mirrored_hardReset (s : State) : Mirrored (hardReset s) := by
  unfold Mirrored
  simp only [statusWord_hardReset]
  exact mirrored_reset

/-- Every event ends with a report, and the rest of a command touches nothing the image shows. -/
theorem kept_mirrored : Kept Mirrored where
  pending _ _ h := h
  waiting _ _ h := h
  count _ _ _ h := h
  pins _ _ h := h
  reset s _ := mirrored_hardReset s
  report _ _ := mirrored_report _
  access _ _ _ := mirrored_report _
  pass _ _ := mirrored_report _
  accum _ _ := mirrored_report _
  trace _ _ := mirrored_report _
  viewFetch _ _ := mirrored_report _
  post _ _ := mirrored_report _
  gateOn _ _ := mirrored_report _
  gateOff _ _ := mirrored_report _
  guard _ _ := mirrored_report _
  fire _ _ := mirrored_report _
  edge _ _ _ := mirrored_report _
  settle _ _ := mirrored_report _
  warmUp _ _ := mirrored_report _
  warmHold _ _ := mirrored_report _
  duty _ _ := mirrored_report _
  spacing _ _ := mirrored_report _
  deadline _ _ _ := mirrored_report _
  result _ _ := mirrored_report _

/-- Settles O4: a command ends with a report. -/
theorem mirrorShowsContents : Obligations.MirrorShowsContents :=
  fun _ _ h ht => kept_mirrored.step h ht

/-! ### The consecutive-PASS count (R173) -/

/-- The count moves at a grant alone, to what the arbiter's decision leaves, and clears at a reset. -/
theorem kept_passCount : Kept fun s => s.path.passCount ≤ 8 where
  pending _ _ h := h
  waiting _ _ h := h
  count _ _ hn _ := hn
  pins _ _ h := h
  reset _ _ := Nat.zero_le _
  report _ h := by simpa using h
  access _ _ h := by simpa using h
  pass _ h := by simpa using h
  accum _ h := by simpa using h
  trace _ h := by simpa using h
  viewFetch _ h := by simpa using h
  post _ h := by simpa using h
  gateOn _ h := by simpa using h
  gateOff _ h := by simpa using h
  guard _ h := by simpa using h
  fire _ h := by simpa using h
  edge _ _ h := by simpa using h
  settle _ h := by simpa using h
  warmUp _ h := by simpa using h
  warmHold _ h := by simpa using h
  duty _ h := by simpa using h
  spacing _ h := by simpa using h
  deadline _ _ h := by simpa using h
  result _ h := by simpa using h

/-- Settles O6: every count a decision leaves is at most 8. -/
theorem passCountBounded : Obligations.PassCountBounded :=
  fun _ _ h ht => kept_passCount.step h ht

end Sys2Proof.Machine
end

section
/-! PROOFS. What every step keeps of the lanes and the sources: both lanes empty outside SWEEPING (2.1), and at most one
source out of COLD, the warm-up timer on a warming one (R49). Both go through the operations together. -/

namespace Sys2Proof.Machine

/-! ### Going from one state to another in good order -/

/-- What held in `s` of the lanes and of the sources holds in `t`. -/
structure Orderly (s t : State) : Prop where
  sources : OneSource s → OneSource t
  lanes : LanesInSweep s → LanesInSweep t

theorem Orderly.refl (s : State) : Orderly s s := ⟨id, id⟩

theorem Orderly.trans {s t u : State} (h : Orderly s t) (h' : Orderly t u) : Orderly s u :=
  ⟨fun x => h'.sources (h.sources x), fun x => h'.lanes (h.lanes x)⟩

/-- The sources are in order where neither they nor the warm-up timer have moved. -/
theorem oneSource_of {s t : State} (hw : t.opt.warm = s.opt.warm) (ht : t.opt.warmUpTimer = s.opt.warmUpTimer)
    (h : OneSource s) : OneSource t := by
  have e : ∀ n, sourceState t n = sourceState s n := fun n => by unfold sourceState; rw [hw]
  exact ⟨fun i j => by simpa only [e] using h.one i j, fun u => by simpa only [e, ht] using h.warmUp u⟩

/-- The lanes are in order where no empty lane is filled and the sequencer keeps its state. -/
theorem lanesInSweep_of {s t : State} (hs : t.seq.state = s.seq.state) (ha : s.seq.acq = none → t.seq.acq = none)
    (hc : s.seq.comp = none → t.seq.comp = none) (h : LanesInSweep s) : LanesInSweep t :=
  fun ht => ⟨ha (h (hs ▸ ht)).1, hc (h (hs ▸ ht)).2⟩

/-- Sources untouched, the sequencer's state kept and no empty lane filled. -/
theorem orderly_of {s t : State} (hw : t.opt.warm = s.opt.warm) (ht : t.opt.warmUpTimer = s.opt.warmUpTimer)
    (hs : t.seq.state = s.seq.state) (ha : s.seq.acq = none → t.seq.acq = none)
    (hc : s.seq.comp = none → t.seq.comp = none) : Orderly s t :=
  ⟨oneSource_of hw ht, lanesInSweep_of hs ha hc⟩

/-- Sources and lanes untouched. -/
theorem orderly_same {s t : State} (hw : t.opt.warm = s.opt.warm) (ht : t.opt.warmUpTimer = s.opt.warmUpTimer)
    (hs : t.seq.state = s.seq.state) (ha : t.seq.acq = s.seq.acq) (hc : t.seq.comp = s.seq.comp) : Orderly s t :=
  orderly_of hw ht hs (fun h => ha.trans h) fun h => hc.trans h

/-- The sequencer may take any state where the lanes are empty and stay so. -/
theorem orderly_empty {s t : State} (hw : t.opt.warm = s.opt.warm) (ht : t.opt.warmUpTimer = s.opt.warmUpTimer)
    (ha : t.seq.acq = s.seq.acq) (hc : t.seq.comp = s.seq.comp)
    (he : s.seq.state ≠ .sweeping ∨ s.seq.acq = none ∧ s.seq.comp = none) : Orderly s t := by
  refine ⟨oneSource_of hw ht, fun h _ => ?_⟩
  rw [ha, hc]
  exact he.elim h id

/-- A report moves neither. -/
theorem orderly_report (s : State) : Orderly s (report s) := by apply orderly_same <;> simp

/-! ### The sources (R49 to R53) -/

/-- The warm state of a source after one source is set. -/
theorem sourceState_set {s t : State} {source : BitVec 2} {a : WarmState}
    (h : t.opt.warm = sourceSet s.opt.warm source a) (n : Nat) :
    sourceState t n = if n = source.toNat ∧ n < 3 then a else sourceState s n := by
  have := source.isLt
  unfold sourceState
  rw [h]
  unfold sourceSet
  split <;> split <;> simp_all <;> omega

/-- Every source COLD is in order. -/
theorem oneSource_cold {s : State} (hw : s.opt.warm = ⟨.cold, .cold, .cold⟩) (ht : s.opt.warmUpTimer = none) :
    OneSource s := by
  have e : ∀ n, sourceState s n = .cold := fun n => by
    unfold sourceState
    rw [hw]
    split <;> rfl
  exact ⟨fun i j hi => absurd (e i) hi, fun t h => by simp [ht] at h⟩

/-- A source turned COLD with its timers (R49, R52). -/
theorem oneSource_coldSource (source : BitVec 2) {s : State} (h : OneSource s) : OneSource (coldSource source s) := by
  have e := sourceState_set (s := s) (t := coldSource source s) (source := source) (a := .cold) rfl
  have out : ∀ n, sourceState (coldSource source s) n ≠ .cold → sourceState s n ≠ .cold := fun n hn => by
    rw [e] at hn
    split at hn
    · exact absurd rfl hn
    · exact hn
  refine ⟨fun i j hi hj => h.one i j (out i hi) (out j hj), fun t ht => ?_⟩
  have ht' : stopFor source s.opt.warmUpTimer = some t := ht
  unfold stopFor at ht'
  split at ht'
  · split at ht'
    · cases ht'
    · rename_i u hu hne
      injection ht' with ht'
      subst ht'
      rw [e, if_neg]
      · exact h.warmUp _ hu
      · rintro ⟨hs, -⟩
        exact hne (BitVec.eq_of_toNat_eq hs)
  · cases ht'

/-- A source of the part turned WARMING from COLD turns every other COLD (R49, R50). -/
theorem oneSource_warmSource {source : BitVec 2} (h3 : source ≠ 3) {s : State} (h : OneSource s) :
    OneSource (warmSource source s) := by
  have lt : source.toNat < 3 := by
    have : source.toNat ≠ 3 := fun e => h3 (BitVec.eq_of_toNat_eq e)
    have := source.isLt
    omega
  unfold warmSource
  split
  · rename_i hc
    set t : State := { s with
      opt.warm := sourceSet (coldOthers source s.opt.warm) source .warming
      opt.warmUpTimer := some ⟨source, headerWarmUp (activeHeader s) source⟩
      opt.warmHoldTimer := none } with ht
    have others : coldOthers source s.opt.warm = ⟨.cold, .cold, .cold⟩ := by
      have hg : sourceGet s.opt.warm source .cold = .cold := hc
      unfold coldOthers
      rw [hg]
      unfold sourceSet
      split <;> rfl
    have e := sourceState_set (s := { s with opt.warm := ⟨.cold, .cold, .cold⟩ }) (t := t) (source := source)
      (a := .warming) (by rw [ht, others])
    have cold : ∀ n, sourceState { s with opt.warm := ⟨.cold, .cold, .cold⟩ } n = .cold := fun n => by
      unfold sourceState
      split <;> rfl
    have only : ∀ n, sourceState t n ≠ .cold → n = source.toNat := fun n hn => by
      rw [e, cold] at hn
      by_contra hne
      exact hn (if_neg fun hc => hne hc.1)
    refine ⟨fun i j hi hj => (only i hi).trans (only j hj).symm, fun u hu => ?_⟩
    injection hu with hu
    subst hu
    rw [e, if_pos ⟨rfl, lt⟩]
  · exact oneSource_of (s := s) rfl rfl h

/-- The source whose warm-up ends was the one out of COLD (R49). -/
theorem oneSource_warmed {s : State} {t : SourceTimer} (ht : s.opt.warmUpTimer = some t) (h : OneSource s) :
    OneSource { s with opt.warm := sourceSet s.opt.warm t.source .warm, opt.warmUpTimer := none } := by
  have e := sourceState_set (s := s)
    (t := { s with opt.warm := sourceSet s.opt.warm t.source .warm, opt.warmUpTimer := none })
    (source := t.source) (a := .warm) rfl
  have out : ∀ n, sourceState { s with opt.warm := sourceSet s.opt.warm t.source .warm, opt.warmUpTimer := none } n ≠
      .cold → sourceState s n ≠ .cold := fun n hn => by
    rw [e] at hn
    split at hn
    · rename_i hs
      rw [hs.1, h.warmUp t ht]
      decide
    · exact hn
  exact ⟨fun i j hi hj => h.one i j (out i hi) (out j hj), fun u hu => by simp at hu⟩

/-- Every source turned COLD (R53). -/
theorem orderly_coldAll (s : State) : Orderly s (coldAll s) :=
  ⟨fun _ => oneSource_cold rfl rfl, fun h => h⟩

/-- Test-active, spacing and every source put to rest (R53). -/
theorem orderly_quenchOptics (s : State) : Orderly s (quenchOptics s) :=
  ⟨fun _ => oneSource_cold rfl rfl, fun h => h⟩

/-- A slot leaves the lane (R52). -/
theorem orderly_leaveLane (source : BitVec 2) (s : State) : Orderly s (leaveLane source s) := by
  unfold leaveLane
  dsimp only
  split
  · exact ⟨fun h => oneSource_coldSource source (oneSource_of (s := s) rfl rfl h), fun h => h⟩
  · exact orderly_same rfl rfl rfl rfl rfl

/-- Optical Control takes up a slot with a source of the part (R47, R50). -/
theorem orderly_opticalEntry {k : SlotIx} {s : State} (h3 : recSource (activeRecord s k) ≠ 3) :
    Orderly s (opticalEntry k s) := by
  refine ⟨fun h => ?_, lanesInSweep_of (by simp) (by simp) (by simp)⟩
  unfold opticalEntry
  dsimp only
  refine oneSource_of (s := warmSource _ _) rfl rfl (oneSource_warmSource h3 (oneSource_of (s := s) ?_ ?_ h))
  all_goals simp only [selectPort_frame]; split <;> rfl

/-! ### The acquisition lane's own changes -/

/-- The firing test moves no slot in or out. -/
theorem orderly_testFire (s : State) : Orderly s (testFire s) := by
  refine orderly_of (by simp) (by simp) (by simp) (fun h => ?_) (by simp)
  simp [testFire, h]

/-- A slot reaches AWAITING COMPARE in its lane. -/
theorem orderly_awaitCompare (held : Held) (s : State) : Orderly s (awaitCompare held s) := by
  refine orderly_of (by simp) (by simp) (by simp) (fun h => ?_) (by simp)
  simp [awaitCompare, h]

/-- A change of phase moves no slot in or out. -/
theorem orderly_setPhase (p : AcqPhase) (s : State) : Orderly s (setPhase p s) := by
  refine orderly_of (by simp) (by simp) (by simp) (fun h => ?_) (by simp)
  simp [setPhase, h]

theorem orderly_guardCheck (s : State) : Orderly s (guardCheck s) := by
  unfold guardCheck
  split
  · exact orderly_awaitCompare _ _
  · exact (orderly_setPhase _ _).trans (orderly_testFire _)

theorem orderly_settlingTest (s : State) : Orderly s (settlingTest s) := by
  unfold settlingTest
  split
  · split
    · exact (orderly_setPhase _ _).trans (orderly_guardCheck _)
    · exact .refl _
  · exact .refl _

theorem orderly_endRunOf (s : State) : Orderly s (endRunOf s) := by apply orderly_same <;> simp

theorem orderly_failureTest (s : State) : Orderly s (failureTest s) := by
  unfold failureTest
  split
  · exact (orderly_awaitCompare _ _).trans (orderly_endRunOf _)
  · exact .refl _

theorem orderly_reject (r : RejectReason) (k : SlotIx) (f : Frame) (s : State) : Orderly s (reject r k f s) :=
  .trans (by apply orderly_same <;> simp) (orderly_failureTest _)

theorem orderly_lose (k : SlotIx) (x : Shot) (s : State) : Orderly s (lose k x s) :=
  .trans (by apply orderly_same <;> simp) (orderly_failureTest _)

theorem orderly_rejectInProgress (r : RejectReason) (s : State) : Orderly s (rejectInProgress r s) := by
  unfold rejectInProgress
  split
  · exact orderly_reject _ _ _ _
  · exact orderly_same rfl rfl rfl rfl rfl

theorem orderly_frameRecord (k : SlotIx) (x : Shot) (w : Word) (s : State) : Orderly s (frameRecord k x w s) := by
  apply orderly_same <;> simp

theorem orderly_matchHeader (w : Word) (s : State) : Orderly s (matchHeader w s) := by
  have stale : Orderly s (staleHeader s) := orderly_same rfl rfl rfl rfl rfl
  have late : ∀ k x y, Orderly s (overtake k x y w s) := fun k x y => by
    unfold overtake
    dsimp only
    split
    · exact (orderly_lose _ _ _).trans (orderly_frameRecord _ _ _ _)
    · exact orderly_lose _ _ _
  unfold matchHeader matchShot
  split
  · split
    · split
      · split
        · exact orderly_frameRecord _ _ _ _
        · split
          · exact late _ _ _
          · exact stale
      · exact stale
    · exact stale
  · exact stale

theorem orderly_headerWritten (w : Word) (s : State) : Orderly s (headerWritten w s) := by
  have framed : Orderly s (frameHeader w s) := by
    unfold frameHeader
    dsimp only
    split
    · split
      · exact orderly_rejectInProgress _ _
      · exact (orderly_rejectInProgress _ _).trans (orderly_matchHeader _ _)
    · exact orderly_matchHeader _ _
  unfold headerWritten
  dsimp only
  split
  · exact framed
  · exact framed.trans (orderly_testFire _)

theorem orderly_acceptRecord (k : SlotIx) (f : Frame) (s : State) : Orderly s (acceptRecord k f s) := by
  unfold acceptRecord
  dsimp only
  refine .trans ?_ (orderly_testFire _)
  apply orderly_same <;> split <;> simp

theorem orderly_wordWritten (o : Nat) (w : Word) (s : State) : Orderly s (wordWritten o w s) := by
  unfold wordWritten
  split
  · split
    · exact (orderly_reject _ _ _ _).trans (orderly_testFire _)
    · split
      · apply orderly_same <;> simp
      · unfold judgeRecord
        split
        · exact (orderly_reject _ _ _ _).trans (orderly_testFire _)
        · split
          · exact (orderly_reject _ _ _ _).trans (orderly_testFire _)
          · exact orderly_acceptRecord _ _ _
  · exact .refl _

theorem orderly_shotWindowWrite (o : Nat) (be : Enables) (w : Word) (s : State) :
    Orderly s (shotWindowWrite o be w s) := by
  unfold shotWindowWrite partialWritten
  split
  · exact .refl _
  · split
    · split
      · exact (orderly_rejectInProgress _ _).trans (orderly_testFire _)
      · exact .refl _
    · split
      · exact orderly_headerWritten _ _
      · exact orderly_wordWritten _ _ _

theorem orderly_deadlineExpired (q : BitVec 16) (s : State) : Orderly s (deadlineExpired q s) := by
  unfold deadlineExpired
  split
  · exact (orderly_lose _ _ _).trans (orderly_testFire _)
  · exact .refl _

theorem orderly_completeAdd (a : AddState) (s : State) : Orderly s (completeAdd a s) := by
  have target : ∀ u, Orderly u (targetTest a.slot u) := fun u => by
    unfold targetTest
    dsimp only
    split
    · split
      · exact .trans (by apply orderly_same <;> simp) (orderly_awaitCompare _ _)
      · apply orderly_same <;> simp
    · exact orderly_testFire _
  refine .trans (u := completeAdd a s) ?_ (orderly_same (s := targetTest a.slot (countAdd a s)) ?_ ?_ ?_ ?_ ?_)
  · exact .trans (by apply orderly_same <;> simp) (target (countAdd a s))
  all_goals simp [completeAdd]

theorem orderly_addWordGranted (a : AddState) (s : State) : Orderly s (addWordGranted a s) := by
  unfold addWordGranted
  split
  · exact orderly_same rfl rfl rfl rfl rfl
  · refine .trans (t := ownWrite (addAddress s a) (addWord s a) (some a.slot) none s)
      (by apply orderly_same <;> simp) ?_
    unfold nextAddPoint
    split
    · exact orderly_same rfl rfl rfl rfl rfl
    · exact orderly_completeAdd _ _

/-! ### The comparison lane's own changes -/

theorem orderly_reportResult (k : SlotIx) (r : Result) (s : State) : Orderly s (reportResult k r s) := by
  refine orderly_of (by simp) (by simp) (by simp) (by simp) (fun h => ?_)
  simp [reportResult, h]

theorem orderly_endCompare (b : Background) (r : Result) (s : State) : Orderly s (endCompare b r s) := by
  unfold endCompare
  dsimp only
  split
  · apply orderly_same <;> simp
  · have reported : ∀ u, Orderly u (setBg none (reportResult b.slot r u)) := fun u =>
      (orderly_reportResult b.slot r u).trans (by apply orderly_same <;> simp)
    refine .trans ?_ (reported _)
    exact orderly_same rfl rfl rfl rfl rfl

theorem orderly_stopOperation (b : Background) (i : Nat) (c : Condition) (s : State) :
    Orderly s (stopOperation b i c s) := by
  unfold stopOperation
  dsimp only
  split
  · apply orderly_same <;> simp
  · exact .trans (by apply orderly_same <;> simp) (orderly_endCompare _ _ _)

theorem orderly_testCondition (v : Bool) (c : Condition) (b : Background) (i : Nat) (s : State) :
    Orderly s (testCondition v c b i s).1 := by
  unfold testCondition meetCondition
  split
  · split
    · exact .refl _
    · dsimp only
      split
      · exact .trans (by apply orderly_same <;> simp) (orderly_stopOperation _ _ _ _)
      · apply orderly_same <;> simp
  · exact .refl _

/-- What follows the test of a condition. -/
theorem orderly_onGoing {s : State} {p : State × Option Background} {rest : Background → State → State}
    (hp : Orderly s p.1) (hr : ∀ b u, Orderly u (rest b u)) : Orderly s (onGoing p rest) := by
  unfold onGoing
  split
  · exact hp.trans (hr _ _)
  · exact hp

theorem orderly_startCompare (op : BgOp) (k : SlotIx) (n : Nat) (c : Bool) (s : State) :
    Orderly s (startCompare op k n c s) := by
  unfold startCompare
  refine orderly_onGoing (.trans (by apply orderly_same <;> simp) (orderly_testCondition _ _ _ _ _)) fun b u => ?_
  split
  · exact orderly_endCompare _ _ _
  · exact orderly_same rfl rfl rfl rfl rfl

theorem orderly_startAdopt (k : SlotIx) (s : State) : Orderly s (startAdopt k s) := by
  unfold startAdopt
  refine orderly_onGoing (.trans (by apply orderly_same <;> simp) (orderly_testCondition _ _ _ _ _)) fun b u => ?_
  apply orderly_same <;> simp

theorem orderly_comparePoint (b : Background) (acc base : Word) (s : State) : Orderly s (comparePoint b acc base s) := by
  unfold comparePoint
  refine orderly_onGoing (orderly_testCondition _ _ _ _ _) fun b1 u => ?_
  refine orderly_onGoing (orderly_testCondition _ _ _ _ _) fun b2 u => ?_
  unfold nextComparePoint
  dsimp only
  split
  · exact orderly_same rfl rfl rfl rfl rfl
  · exact orderly_endCompare _ _ _

theorem orderly_traceWordGranted (b : Background) (s : State) : Orderly s (traceWordGranted b s) := by
  unfold traceWordGranted
  split
  · dsimp only
    split
    · unfold adoptRead
      exact orderly_onGoing (orderly_testCondition _ _ _ _ _) fun b u => orderly_same rfl rfl rfl rfl rfl
    · split
      · exact orderly_same rfl rfl rfl rfl rfl
      · exact orderly_comparePoint _ _ _ _
  · exact orderly_comparePoint _ _ _ _
  · apply orderly_same <;> simp
  · exact .refl _

theorem orderly_runTrace (s : State) : Orderly s (runTrace s) := by
  suffices h : ∀ n u, Orderly u (pumpTrace n u) from h _ _
  intro n
  induction n with
  | zero => exact Orderly.refl
  | succ n ih =>
    intro u
    unfold pumpTrace
    split
    · split
      · refine .trans ?_ (ih _)
        unfold wordlessPoint
        split
        · apply orderly_same <;> simp
        · exact orderly_comparePoint _ _ _ _
      · exact .refl _
    · exact .trans (by apply orderly_same <;> simp) (ih _)
    · exact .refl _

/-! ### Moves, offers and sweeps -/

theorem orderly_moveToComparison {k : SlotIx} {held : Held} {s : State} (h : s.seq.state = .sweeping) :
    Orderly s (moveToComparison k held s) := by
  refine ⟨fun ho => ?_, fun _ hn => absurd (by simpa using h) hn⟩
  unfold moveToComparison
  refine oneSource_of (by simp) (by simp) ((orderly_leaveLane (recSource (activeRecord s k))
    { s with seq.acq := none }).sources (oneSource_of (s := s) rfl rfl ho))

/-- The source of a slot that passes the plan check is one of the part's (R16). -/
theorem source_of_planCheck {s : State} {k : SlotIx} (h : planCheck s k = true) : recSource (activeRecord s k) ≠ 3 := by
  simp only [planCheck, fieldsPass, Bool.and_eq_true, bne_iff_ne] at h
  tauto

theorem oneSource_enterLane {k : SlotIx} {s : State} (h3 : recSource (activeRecord s k) ≠ 3) (h : OneSource s) :
    OneSource (enterLane k s) := by
  unfold enterLane
  dsimp only
  refine (orderly_settlingTest _).sources ((orderly_report _).sources ((orderly_opticalEntry ?_).sources
    (oneSource_of (s := s) (by simp) (by simp) h)))
  simpa [activeRecord] using h3

theorem orderly_offerLane {s : State} (h : s.seq.state = .sweeping) : Orderly s (offerLane s) := by
  refine ⟨fun ho => ?_, fun _ hn => absurd (by simpa using h) hn⟩
  unfold offerLane offerSlot
  dsimp only
  split
  · split
    · split
      · rename_i hp
        exact oneSource_enterLane (source_of_planCheck hp) (oneSource_of (by simp) (by simp) ho)
      · exact oneSource_of (by simp) (by simp) ho
    · exact oneSource_of (by simp) (by simp) ho
  · exact oneSource_of (s := s) rfl rfl ho

/-- The lanes call in SWEEPING only (R30, R32). -/
theorem sweeping_of_laneCalls {s : State} (h : laneCalls s = true) : s.seq.state = .sweeping := by
  simp only [laneCalls, Bool.and_eq_true, decide_eq_true_eq] at h
  exact h.1

theorem orderly_lanes (n : Nat) (s : State) : Orderly s (lanes n s) := by
  induction n generalizing s with
  | zero => exact .refl _
  | succ n ih =>
    unfold lanes
    split
    · rename_i hl
      refine .trans ?_ (ih _)
      unfold laneMove
      split
      · exact orderly_moveToComparison (sweeping_of_laneCalls hl)
      · exact .refl _
      · exact orderly_offerLane (sweeping_of_laneCalls hl)
    · exact .refl _

/-- A sweep that is over has left both lanes empty (R35, R38). -/
theorem empty_of_sweepOver {s : State} (h : sweepOver s = true) : s.seq.acq = none ∧ s.seq.comp = none := by
  simp only [sweepOver, Bool.and_eq_true, Option.isNone_iff_eq_none] at h
  exact ⟨h.1.1.2, h.1.2⟩

theorem orderly_sweepOn (n : Nat) (s : State) : Orderly s (sweepOn n s) := by
  induction n generalizing s with
  | zero => exact .refl _
  | succ n ih =>
    unfold sweepOn
    dsimp only
    split
    · rename_i ho
      refine .trans (orderly_lanes 32 s) (.trans (orderly_empty ?_ ?_ ?_ ?_ (.inr (empty_of_sweepOver ho))) (ih _))
      all_goals simp
    · exact orderly_lanes 32 s

theorem orderly_advance (s : State) : Orderly s (advance s) := (orderly_sweepOn 3 s).trans (orderly_runTrace _)

/-- A sweep that starts in WAITING finds the lanes empty (R26). -/
theorem orderly_waitingTest (s : State) : Orderly s (waitingTest s) := by
  by_cases h : s.seq.state = .waiting
  · refine orderly_empty ?_ ?_ ?_ ?_ (.inl (by simp [h])) <;> simp
  · simpa [waitingTest, h] using Orderly.refl s

/-- Where the lanes empty, a lane's abandonment is in order (R39). -/
theorem orderly_abandonAcquisition (keep : Bool) (s : State) : Orderly s (abandonAcquisition keep s) := by
  unfold abandonAcquisition
  split
  · rename_i l _
    have drop : Orderly s (dropAcquisition l.slot s) :=
      orderly_of (by simp) (by simp) (by simp) (fun _ => by simp [dropAcquisition]) (by simp)
    dsimp only
    refine .trans ?_ (orderly_report _)
    split
    · exact drop.trans (orderly_leaveLane _ _)
    · exact drop
  · exact .refl _

@[simp] theorem abandonAcquisition_acq (keep : Bool) (s : State) : (abandonAcquisition keep s).seq.acq = none := by
  unfold abandonAcquisition
  split
  · cases keep <;> simp [dropAcquisition]
  · assumption

@[simp] theorem abandonComparison_comp (s : State) : (abandonComparison s).seq.comp = none := by
  unfold abandonComparison
  split
  · simp
  · assumption

@[simp] theorem abandonLanes_lanes (keep : Bool) (s : State) :
    (abandonLanes keep s).seq.acq = none ∧ (abandonLanes keep s).seq.comp = none := by
  simp [abandonLanes]

theorem orderly_abandonLanes (keep : Bool) (s : State) : Orderly s (abandonLanes keep s) := by
  refine (orderly_abandonAcquisition keep s).trans (orderly_of ?_ ?_ ?_ ?_ ?_) <;> simp [abandonLanes]

/-! ### Commands -/

@[simp] theorem endAllWork_lanes (s : State) : (endAllWork s).seq.acq = none ∧ (endAllWork s).seq.comp = none := by
  unfold endAllWork
  dsimp only
  split <;> simp

/-- A command that empties the lanes and turns every source COLD is in order. -/
theorem orderly_ended {s t : State} (hw : t.opt.warm = ⟨.cold, .cold, .cold⟩) (ht : t.opt.warmUpTimer = none)
    (ha : t.seq.acq = none) (hc : t.seq.comp = none) : Orderly s t :=
  ⟨fun _ => oneSource_cold hw ht, fun _ _ => ⟨ha, hc⟩⟩

@[simp] theorem coldAll_sources (s : State) :
    (coldAll s).opt.warm = ⟨.cold, .cold, .cold⟩ ∧ (coldAll s).opt.warmUpTimer = none ∧
    (coldAll s).opt.warmHoldTimer = none :=
  ⟨rfl, rfl, rfl⟩

@[simp] theorem quenchOptics_sources (s : State) :
    (quenchOptics s).opt.warm = ⟨.cold, .cold, .cold⟩ ∧ (quenchOptics s).opt.warmUpTimer = none ∧
    (quenchOptics s).opt.warmHoldTimer = none ∧ (quenchOptics s).opt.testActive = false ∧
    (quenchOptics s).opt.spacingTimer = none :=
  ⟨rfl, rfl, rfl, rfl, rfl⟩

theorem orderly_commandStop (s : State) : Orderly s (commandStop s).1 := by
  unfold commandStop
  split
  · exact .refl _
  · refine (orderly_quenchOptics s).trans ((orderly_abandonLanes false _).trans (orderly_empty ?_ ?_ ?_ ?_ (.inr ?_)))
    all_goals simp
  · rename_i h1 h2
    refine (orderly_quenchOptics s).trans (orderly_empty ?_ ?_ ?_ ?_ (.inl ?_))
    all_goals simp
    exact h2

theorem orderly_commandRestart (s : State) : Orderly s (commandRestart s).1 := by
  unfold commandRestart
  split
  · refine (orderly_abandonLanes true s).trans (orderly_empty ?_ ?_ ?_ ?_ (.inr ?_))
    all_goals simp
  · refine orderly_empty ?_ ?_ ?_ ?_ (.inl ?_)
    all_goals simp [*]
  · refine orderly_empty ?_ ?_ ?_ ?_ (.inl ?_)
    all_goals simp [*]
  · exact .refl _

/-- A command of the sequencer that acts outside SWEEPING only, and leaves lanes and sources alone. -/
theorem orderly_outside {s t : State} (h : s.seq.state = .sweeping → t = s) (hw : t.opt.warm = s.opt.warm)
    (ht : t.opt.warmUpTimer = s.opt.warmUpTimer) (ha : t.seq.acq = s.seq.acq) (hc : t.seq.comp = s.seq.comp) :
    Orderly s t := by
  by_cases hs : s.seq.state = .sweeping
  · rw [h hs]
    exact .refl _
  · exact orderly_empty hw ht ha hc (.inl hs)

/-- The slot operand takes a command to one slot or refuses it. -/
theorem orderly_withSlot {f : SlotIx → State → Answer} (hf : ∀ k s, Orderly s (f k s).1) (o : BitVec 8) (s : State) :
    Orderly s (withSlot o f s).1 := by
  unfold withSlot
  split
  · exact hf _ _
  · exact .refl _

theorem orderly_runCommand (c : CommandName) (o : BitVec 8) (s : State) : Orderly s (runCommand c o s).1 := by
  cases c
  case disable => apply orderly_ended <;> simp [runCommand, commandDisable]
  case reinit => apply orderly_ended <;> simp [runCommand, commandReinit]
  case stop => exact orderly_commandStop s
  case restart => exact orderly_commandRestart s
  case enable => refine orderly_outside (fun h => by simp [runCommand, commandEnable, h]) ?_ ?_ ?_ ?_ <;> simp [runCommand]
  case start => refine orderly_outside (fun h => by simp [runCommand, commandStart, h]) ?_ ?_ ?_ ?_ <;> simp [runCommand]
  case resume => refine orderly_outside (fun h => by simp [runCommand, commandResume, h]) ?_ ?_ ?_ ?_ <;> simp [runCommand]
  case release => refine orderly_outside (fun h => by simp [runCommand, commandRelease, h]) ?_ ?_ ?_ ?_ <;> simp [runCommand]
  case trigger => refine orderly_outside (fun h => by simp [runCommand, commandTrigger, triggerCounts, h]) ?_ ?_ ?_ ?_ <;> simp [runCommand]
  case clearConditions => apply orderly_same <;> simp [runCommand]
  case ackNotices => apply orderly_same <;> simp [runCommand]
  case markBased => exact orderly_withSlot (fun k u => by apply orderly_same <;> simp) o s
  case adopt =>
    refine orderly_withSlot (fun k u => ?_) o s
    unfold commandAdopt
    split_ifs
    exacts [.refl _, .refl _, .refl _, orderly_startAdopt k u]
  case compare =>
    refine orderly_withSlot (fun k u => ?_) o s
    unfold commandCompare
    split_ifs
    exacts [.refl _, .refl _, .refl _, .trans (by apply orderly_same <;> simp) (orderly_startCompare _ _ _ _ _)]

theorem orderly_recordOutcome (code tag : BitVec 8) (o : CmdOutcome) (s : State) :
    Orderly s (recordOutcome code tag o s) := by
  apply orderly_same <;> simp

theorem orderly_takeCommand (be : Enables) (data : Word) (s : State) : Orderly s (takeCommand be data s) := by
  unfold takeCommand takeFullCommand takeNamed
  split
  · split
    · dsimp only
      refine .trans ?_ (orderly_recordOutcome _ _ _ _)
      split
      · exact (orderly_runCommand _ _ _).trans ((orderly_report _).trans (orderly_advance _))
      · exact .refl _
    · exact orderly_recordOutcome _ _ _ _
  · exact orderly_recordOutcome _ _ _ _

/-! ### Accesses and events -/

theorem orderly_takePlanWrite (a : Access) (s : State) : Orderly s (takePlanWrite a s) := by
  unfold takePlanWrite testAfterHeader
  dsimp only
  have merged : Orderly s (report (applyOutside (mergePlan (a.word % 4096) a.be a.data s))) := by
    apply orderly_same <;> simp
  split
  · exact merged.trans ((orderly_waitingTest _).trans (orderly_advance _))
  · exact merged

theorem orderly_takeWrite (a : Access) (s : State) : Orderly s (takeWrite a s) := by
  unfold takeWrite
  split
  case h_2 => exact (orderly_takePlanWrite a s).trans (by apply orderly_same <;> simp)
  case h_3 => exact (orderly_takeCommand a.be a.data s).trans (by apply orderly_same <;> simp)
  case h_7 =>
    exact (orderly_shotWindowWrite _ _ _ _).trans ((orderly_report _).trans (orderly_advance _))
  all_goals apply orderly_same <;> simp

theorem orderly_takeRead (a : Access) (s : State) : Orderly s (takeRead a s) := by
  unfold takeRead
  split
  case h_2 =>
    unfold arriveView
    split
    · refine .trans ?_ (orderly_runTrace _)
      exact orderly_same rfl rfl rfl rfl rfl
    · apply orderly_same <;> simp
  all_goals apply orderly_same <;> simp

theorem orderly_takeAccess (a : Access) (s : State) : Orderly s (takeAccess a s) := by
  refine .trans ?_ (orderly_report _)
  split
  · exact orderly_takeWrite a s
  · exact orderly_takeRead a s

theorem orderly_passGranted (s : State) : Orderly s (passGranted s) := by
  unfold passGranted
  split
  · dsimp only
    split
    · split
      · exact orderly_same rfl rfl rfl rfl rfl
      · exact .trans (by apply orderly_same <;> simp) (orderly_runTrace _)
    · apply orderly_same <;> simp
  · exact .refl _

theorem orderly_accumGranted (s : State) : Orderly s (accumGranted s) := by
  unfold accumGranted
  split
  · exact (orderly_addWordGranted _ _).trans (orderly_advance _)
  · exact .refl _

theorem orderly_traceGranted (s : State) : Orderly s (traceGranted s) := by
  unfold traceGranted
  split
  · exact (orderly_traceWordGranted _ _).trans (orderly_advance _)
  · exact .refl _

theorem orderly_viewFetchGranted (s : State) : Orderly s (viewFetchGranted s) :=
  .trans (by apply orderly_same <;> simp) (orderly_runTrace _)

theorem orderly_postGranted (s : State) : Orderly s (postGranted s) :=
  .trans (by apply orderly_same <;> simp) (orderly_runTrace _)

theorem orderly_gateAsserted (s : State) : Orderly s (gateAsserted s) :=
  (orderly_waitingTest s).trans ((orderly_testFire _).trans (orderly_advance _))

theorem orderly_gateDeasserted (s : State) : Orderly s (gateDeasserted s) := by
  unfold gateDeasserted
  split
  · refine .trans ?_ ((orderly_abandonAcquisition true _).trans (orderly_advance _))
    exact orderly_same rfl rfl rfl rfl rfl
  · exact .refl _

theorem orderly_guardAsserted (s : State) : Orderly s (guardAsserted s) := by
  unfold guardAsserted
  split
  · exact (orderly_awaitCompare _ _).trans ((orderly_endRunOf _).trans (orderly_advance _))
  · exact .refl _

/-- A trigger starts a sweep in WAITING, where the lanes are empty (R27). -/
theorem orderly_edgeTaken (e : EdgeSense) (s : State) : Orderly s (edgeTaken e s) := by
  unfold edgeTaken
  split
  · rename_i h
    have hw : s.seq.state = .waiting := by
      have := h.2
      simp only [triggerCounts, Bool.and_eq_true, decide_eq_true_eq] at this
      exact this.1.1
    refine .trans (orderly_empty ?_ ?_ ?_ ?_ (.inl (by simp [hw]))) (orderly_advance _)
    all_goals simp
  · exact .refl _

theorem orderly_settleExpired (s : State) : Orderly s (settleExpired s) := by
  unfold settleExpired
  split
  · refine .trans ?_ ((orderly_settlingTest _).trans (orderly_advance _))
    exact orderly_same rfl rfl rfl rfl rfl
  · exact .refl _

theorem orderly_warmUpExpired (s : State) : Orderly s (warmUpExpired s) := by
  unfold warmUpExpired
  split
  · rename_i t ht
    exact .trans ⟨oneSource_warmed ht, fun h => h⟩ ((orderly_settlingTest _).trans (orderly_advance _))
  · exact .refl _

theorem orderly_warmHoldExpired (s : State) : Orderly s (warmHoldExpired s) := by
  unfold warmHoldExpired
  split
  · exact ⟨oneSource_coldSource _, fun h => h⟩
  · exact .refl _

theorem orderly_dutyEnded (s : State) : Orderly s (dutyEnded s) := by
  have rest : ∀ u, Orderly u (endRest u) := fun u => by
    unfold endRest
    split
    · split
      · exact orderly_setPhase _ _
      · exact .refl _
    · exact .refl _
  unfold dutyEnded
  split
  · refine .trans ?_ ((rest _).trans (orderly_testFire _))
    apply orderly_same <;> simp
  · exact .refl _

theorem orderly_spacingExpired (s : State) : Orderly s (spacingExpired s) := by
  unfold spacingExpired
  split
  · refine .trans ?_ (orderly_testFire _)
    exact orderly_same rfl rfl rfl rfl rfl
  · exact .refl _

theorem orderly_deadlineTaken (q : BitVec 16) (s : State) : Orderly s (deadlineTaken q s) :=
  (orderly_deadlineExpired q s).trans (orderly_advance _)

theorem orderly_resultTaken (s : State) : Orderly s (resultTaken s) := by
  refine .trans ?_ (orderly_advance _)
  refine orderly_of (by simp) (by simp) (by simp) (by simp) (fun h => ?_)
  simp [takePosted, h]

/-- The reset state is in order, whatever was before. -/
theorem orderly_hardReset (s : State) : Orderly s (hardReset s) := orderly_ended rfl rfl rfl rfl

/-- A property carried along from each state to one it goes to in good order is kept by every step. -/
theorem kept_of_orderly {P : State → Prop} (h : ∀ {s t}, Orderly s t → P s → P t) : Kept P where
  pending _ _ := h (orderly_same rfl rfl rfl rfl rfl)
  waiting _ _ := h (orderly_same rfl rfl rfl rfl rfl)
  count _ _ _ := h (orderly_same rfl rfl rfl rfl rfl)
  pins _ _ := h (orderly_same rfl rfl rfl rfl rfl)
  reset s := h (orderly_hardReset s)
  report s := h (orderly_report s)
  access a s := h (orderly_takeAccess a s)
  pass s := h ((orderly_passGranted s).trans (orderly_report _))
  accum s := h ((orderly_accumGranted s).trans (orderly_report _))
  trace s := h ((orderly_traceGranted s).trans (orderly_report _))
  viewFetch s := h ((orderly_viewFetchGranted s).trans (orderly_report _))
  post s := h ((orderly_postGranted s).trans (orderly_report _))
  gateOn s := h ((orderly_gateAsserted s).trans (orderly_report _))
  gateOff s := h ((orderly_gateDeasserted s).trans (orderly_report _))
  guard s := h ((orderly_guardAsserted s).trans (orderly_report _))
  fire s := h ((orderly_testFire s).trans (orderly_report _))
  edge e s := h ((orderly_edgeTaken e s).trans (orderly_report _))
  settle s := h ((orderly_settleExpired s).trans (orderly_report _))
  warmUp s := h ((orderly_warmUpExpired s).trans (orderly_report _))
  warmHold s := h ((orderly_warmHoldExpired s).trans (orderly_report _))
  duty s := h ((orderly_dutyEnded s).trans (orderly_report _))
  spacing s := h ((orderly_spacingExpired s).trans (orderly_report _))
  deadline q s := h ((orderly_deadlineTaken q s).trans (orderly_report _))
  result s := h ((orderly_resultTaken s).trans (orderly_report _))

/-- Settles O5: a source starts to warm with every other COLD, and the timer's source is the one that turns WARM. -/
theorem oneSourceOutOfCold : Obligations.OneSourceOutOfCold :=
  fun _ _ hs ht => (kept_of_orderly Orderly.sources).step hs ht

/-- Settles O7: a slot enters a lane in SWEEPING only, and SWEEPING is left with both lanes empty. -/
theorem lanesOnlyInSweeping : Obligations.LanesOnlyInSweeping :=
  fun _ _ hs ht => (kept_of_orderly Orderly.lanes).step hs ht

/-- Settles O8: the reset state's memory is empty, its image shows it, its sources are COLD and its lanes empty. -/
theorem resetMeetsInvariants : Obligations.ResetMeetsInvariants :=
  ⟨rfl, mirrored_reset, oneSource_cold rfl rfl, Nat.zero_le _, fun _ => ⟨rfl, rfl⟩⟩

end Sys2Proof.Machine
end

section
/-! PROOFS. The commands of the command word: their outcomes, refusals, and the commands that settle at once (R18 to R20,
R23, R25, R40 to R43, R134, R153). -/

namespace Sys2Proof.Machine

/-! ### Outcomes (2.7, R19, R20) -/

/-- The write of a command, as the access it is. -/
theorem commandWrite_eq (c : CommandName) (operand spare tag : BitVec 8) :
    commandWrite c operand spare tag = ⟨0xFFF880#25, true, 0xF#4, c.word operand spare tag⟩ := rfl

/-- The outcome an owner answers is the one the tables give. -/
theorem runCommand_outcome (c : CommandName) (operand : BitVec 8) (s : State) :
    (runCommand c operand s).2 = tableOutcome c operand s := by
  cases c
  case disable => rfl
  case reinit => rfl
  case clearConditions => rfl
  case ackNotices => rfl
  case enable =>
    simp only [runCommand, commandEnable, tableOutcome]
    split_ifs <;> rfl
  case start =>
    simp only [runCommand, commandStart, tableOutcome]
    cases s.seq.state <;> simp
    split_ifs <;> rfl
  case stop =>
    simp only [runCommand, commandStop, tableOutcome]
    cases s.seq.state <;> rfl
  case resume =>
    simp only [runCommand, commandResume, tableOutcome]
    split_ifs <;> rfl
  case restart =>
    simp only [runCommand, commandRestart, tableOutcome]
    cases s.seq.state <;> rfl
  case release =>
    simp only [runCommand, commandRelease, tableOutcome]
    split_ifs <;> rfl
  case trigger =>
    have counts : triggerCounts s = true ↔
        s.seq.state = .waiting ∧ headerMode (activeHeader s) = .triggered ∧ s.pins.gate = true := by
      simp only [triggerCounts, Bool.and_eq_true, decide_eq_true_eq, and_assoc]
      rfl
    simp only [runCommand, commandTrigger, tableOutcome, counts]
    split_ifs <;> rfl
  case adopt =>
    have free : bgFree s = false ↔ s.trace.bg ≠ none := by simp [bgFree, ← Option.ne_none_iff_isSome]
    simp only [runCommand, withSlot, tableOutcome, commandAdopt, free]
    split_ifs <;> simp_all
  case compare =>
    have free : bgFree s = false ↔ s.trace.bg ≠ none := by simp [bgFree, ← Option.ne_none_iff_isSome]
    simp only [runCommand, withSlot, tableOutcome, commandCompare, free, activeRecord]
    split_ifs <;> simp_all
  case markBased =>
    simp only [runCommand, withSlot, tableOutcome, commandMarkBased]
    split_ifs <;> rfl

/-- An answer that leaves the state alone unless it accepts (R20). -/
def Answer.Refusing (s : State) (r : Answer) : Prop := r.2 ≠ .accepted → r.1 = s

theorem refusing_refuse (s : State) (o : CmdOutcome) : Answer.Refusing s (refuse o s) := fun _ => rfl

theorem refusing_accepted (s u : State) : Answer.Refusing s (u, .accepted) := fun h => absurd rfl h

/-- A choice between two such answers is one. -/
theorem refusing_ite {s : State} {p : Prop} [Decidable p] {a b : Answer} (ha : a.Refusing s) (hb : b.Refusing s) :
    (if p then a else b).Refusing s := by
  split
  · exact ha
  · exact hb

/-- An owner that refuses leaves the state alone (R20). -/
theorem runCommand_refusing (c : CommandName) (operand : BitVec 8) (s : State) :
    (runCommand c operand s).Refusing s := by
  have yes := refusing_accepted s
  have no := refusing_refuse s
  have slot : ∀ f : SlotIx → State → Answer, (∀ k, (f k s).Refusing s) → (withSlot operand f s).Refusing s :=
    fun f hf => by
      unfold withSlot
      split
      · exact hf _
      · exact no _
  cases c
  case disable => exact yes _
  case reinit => exact yes _
  case clearConditions => exact yes _
  case ackNotices => exact yes _
  case enable => exact refusing_ite (refusing_ite (no _) (yes _)) (no _)
  case resume => exact refusing_ite (yes _) (no _)
  case release => exact refusing_ite (yes _) (no _)
  case trigger => exact refusing_ite (yes _) (no _)
  case start =>
    change (commandStart s).Refusing s
    unfold commandStart
    split
    · exact refusing_ite (no _) (refusing_ite (yes _) (yes _))
    all_goals exact no _
  case stop =>
    change (commandStop s).Refusing s
    unfold commandStop
    split <;> [exact no _; exact yes _; exact yes _]
  case restart =>
    change (commandRestart s).Refusing s
    unfold commandRestart
    split <;> [exact yes _; exact yes _; exact yes _; exact no _]
  case adopt => exact slot _ fun k => refusing_ite (no _) (refusing_ite (no _) (refusing_ite (no _) (yes _)))
  case compare => exact slot _ fun k => refusing_ite (no _) (refusing_ite (no _) (refusing_ite (no _) (yes _)))
  case markBased => exact slot _ fun k => refusing_ite (no _) (yes _)

/-- Settles O9: the outcome recorded is the owner's answer, and the write is passed on. -/
theorem outcomeByState : Obligations.OutcomeByState := by
  intro c operand spare tag s ready
  refine ⟨_, exec_command c operand spare tag s, ?_, ?_⟩
  · simp [present_command ready, takeNamed, runCommand_outcome]
  · rw [present_command ready, report_mk]
    exact congrArg some (commandWrite_eq c operand spare tag)

/-- Settles O10: an owner that refuses returns the state it was given. -/
theorem refusalChangesOnlyOutcome : Obligations.RefusalChangesOnlyOutcome := by
  intro c operand spare tag s ready refused
  have ho := runCommand_outcome c operand s
  have hr : runCommand c operand s = (s, tableOutcome c operand s) :=
    Prod.ext (runCommand_refusing c operand s (ho ▸ refused)) ho
  exact (exec_command c operand spare tag s).trans
    (congrArg Host.Outcome.next (present_refused ready spare tag hr refused))

/-! ### Malformed writes of the command word (R18, R19) -/

/-- A write of the command word taken on a ready bus. -/
theorem present_commandWord {s : State} (h : BusReady s) (be : Enables) (data : Word) :
    present (pageWrite 0x880#12 be data) s =
      report (passAccess (pageWrite 0x880#12 be data) (takeCommand be data s)) := by
  have hw : (pageWrite 0x880#12 be data).write = true := rfl
  have hc : classOf (pageWrite 0x880#12 be data).word = .commandWord := by
    rw [pageWrite_word]
    decide
  simp only [present_ready h, takeAccess, takeWrite, hw, hc, if_true]
  rfl

/-- A code above 0x0E, and 0x00, name no command (R19 test 1). -/
theorem decodeCode_unnamed : ∀ c : BitVec 8, namedCode c = false → decodeCode c = none := by decide

/-- Settles O22: neither kind of write reaches an owner. -/
theorem malformedCommands : Obligations.MalformedCommands := by
  intro s ready
  refine ⟨fun data unnamed => ?_, fun be data partly => ?_⟩
  · refine congrArg Host.Outcome.next ((present_commandWord ready _ _).trans ?_)
    simp [takeCommand, takeFullCommand, decodeCode_unnamed _ unnamed]
  · refine congrArg Host.Outcome.next ((present_commandWord ready _ _).trans ?_)
    simp [takeCommand, partly, enabledByte]

/-! ### Commands after which nothing goes further -/

/-- Settles O11. -/
theorem enableEntersIdle : Obligations.EnableEntersIdle := by
  intro operand spare tag s ready trace off ring
  refine exec_accepted ready .enable operand spare tag ?_ (settled_report (settled_outside ?_ ready.noView trace))
  · simp [runCommand, commandEnable, off, ring]
  · simp

/-- With nothing of the plan to apply, a state entered is the state alone, and its report (R10). -/
theorem enterState_settled {st : SeqState} {s : State} (h : PlanSettled s) :
    enterState st s = report { s with seq.state := st } := by
  unfold enterState
  rw [applyOutside_settled (u := { s with seq.state := st }) h]

/-- A report before an accepted command's own is taken up by it. -/
theorem answered_report (c : CommandName) (operand spare tag : BitVec 8) (u : State) :
    answered c operand spare tag .accepted (report u) = answered c operand spare tag .accepted u :=
  report_recordOutcome_report _ _ _ _ _

/-- An accepted command that rests the sequencer in a state other than SWEEPING, with the Trace Engine settled. -/
theorem exec_rests {s u : State} (h : BusReady s) (c : CommandName) (operand spare tag : BitVec 8)
    (hr : runCommand c operand s = (report u, .accepted)) (hs : u.seq.state ≠ .sweeping)
    (hv : u.trace.view = none) (ht : TraceSettled u) :
    exec (commandInstr c operand spare tag) s = .next (answered c operand spare tag .accepted u) := by
  rw [exec_accepted h c operand spare tag hr, answered_report]
  exact settled_report (settled_report (settled_outside hs hv ht))

/-- WAITING entered where no sweep may start (R26). -/
theorem enterWaiting_settled {s : State} (h : PlanSettled s) (hw : activeMode s = .triggered ∨ s.pins.gate = false) :
    enterWaiting s = report { s with seq.state := .waiting } := by
  unfold enterWaiting waitingTest
  rw [enterState_settled h, if_neg]
  rintro ⟨-, hm, hg⟩
  obtain h' | h' := hw
  · exact hm (by simpa [activeMode, activeHeader] using h')
  · simp [h'] at hg

/-- Settles O15: each of the three commands comes to WAITING entered with the gate deasserted, or in TRIGGERED mode. -/
theorem waitingEntered : Obligations.WaitingEntered := by
  intro operand spare tag s ready trace plan
  have gated : s.pins.gate = false → startOrWait s = report { s with seq.state := .waiting } := fun hg => by
    simp [startOrWait, hg, enterWaiting_settled plan (.inr hg)]
  have rests := fun c hr => exec_rests ready c operand spare tag (u := { s with seq.state := .waiting }) hr
    (by simp) ready.noView trace
  refine ⟨fun idle free held => rests .start ?_, fun paused hg => rests .release ?_, fun st pause hg => rests .restart ?_⟩
  · simp only [runCommand, commandStart, idle, free]
    obtain hm | hg := held
    · simp [activeMode, hm, enterWaiting_settled plan (.inl hm)]
    · simp [gated hg, enterWaiting_settled plan (.inr hg)]
  · simp [runCommand, commandRelease, paused, gated hg]
  · obtain st | st := st <;>
      simp [runCommand, commandRestart, st, applyDirty_settled plan, restartNext, pause, gated hg]

/-- Settles O16. -/
theorem restingStatesEntered : Obligations.RestingStatesEntered := by
  intro operand spare tag s ready trace
  refine ⟨fun plan notOff notSweeping => ?_, fun plan st pause => ?_, fun halted => ?_⟩
  · refine exec_rests ready .stop operand spare tag ?_ (by simp) ready.noView trace
    have hstop : commandStop s = (enterState .halted (quenchOptics s), .accepted) := by
      unfold commandStop
      split <;> simp_all
    rw [runCommand, hstop, enterState_settled (s := quenchOptics s) plan]
    rfl
  · refine exec_rests ready .restart operand spare tag (u := { s with seq.state := .paused }) ?_ (by simp) ready.noView
      trace
    obtain st | st := st <;>
      simp [runCommand, commandRestart, st, applyDirty_settled plan, restartNext, pause, enterState_settled plan]
  · refine exec_accepted ready .resume operand spare tag ?_ (settled_report (settled_outside ?_ ready.noView trace))
    · simp [runCommand, commandResume, halted]
    · simp

/-- Settles O18. -/
theorem ackAndMarkBased : Obligations.AckAndMarkBased := by
  intro operand spare tag s ready settled
  refine ⟨?_, fun h lane adopt => ?_⟩
  · exact exec_accepted ready .ackNotices operand spare tag rfl (settled_report (settled_of settled rfl rfl rfl))
  · refine exec_accepted ready .markBased operand spare tag ?_ (settled_report (settled_of settled rfl rfl rfl))
    simp [runCommand, withSlot, h, commandMarkBased, lane, adopt, setBased, modifySlot]

end Sys2Proof.Machine
end

section
/-! PROOFS. DISABLE and REINIT: what ends with all work, and what is kept (R24, R44, R48, R53, R80, R81, R93, R105,
R130, R153). -/

namespace Sys2Proof.Machine

/-! ### A run ended with no view read held (R80, R93) -/

@[simp] theorem clearIntake_intake (s : State) : (clearIntake s).intake =
    { s.intake with outstanding := [], buffer0 := .free, buffer1 := .free, framing := none } := rfl

/-- The run ended leaves Shot Intake empty. -/
@[simp] theorem endRunOf_intake (s : State) : (endRunOf s).intake =
    { s.intake with outstanding := [], buffer0 := .free, buffer1 := .free, framing := none } := by
  simp [endRunOf]

/-- With no view read held, a run's end leaves the Trace Engine alone and the Accumulation Engine idle. -/
theorem endRunOf_held {s : State} (hv : s.trace.view = none) : (endRunOf s).trace = s.trace ∧
    (endRunOf s).accum.queue = [] ∧ (endRunOf s).accum.add = none ∧
    (endRunOf s).accum.clippedContent = s.accum.clippedContent ∧ (endRunOf s).freeIndex = s.freeIndex := by
  unfold endRunOf
  rw [stopAdds_held (s := clearIntake s) (by simpa using hv)]
  simp [clearIntake]

/-- The acquisition lane abandoned leaves Shot Intake empty, or as it was with no slot in the lane (R39, R80). -/
theorem abandonLanes_intake (keep : Bool) (s : State) : (abandonLanes keep s).intake =
    if s.seq.acq = none then s.intake
    else { s.intake with outstanding := [], buffer0 := .free, buffer1 := .free, framing := none } := by
  have acq : (abandonLanes keep s).intake = (abandonAcquisition keep s).intake := by simp [abandonLanes]
  rw [acq]
  unfold abandonAcquisition
  split
  · cases keep <;> simp [dropAcquisition, *]
  · simp [*]

/-- What the end of all work leaves of the intake, with the failure count cleared (R81). -/
theorem endAllWork_intake (s : State) : (endAllWork s).intake = { s.intake with
    outstanding := []
    buffer0 := .free
    buffer1 := .free
    framing := none
    failures := 0 } := by
  unfold endAllWork
  dsimp only
  split <;> simp [abandonLanes_intake] <;> split <;> simp

/-- With no view read held, an abandonment leaves none held, and the accumulator's clipped mark as it is. -/
theorem abandonLanes_held {s : State} (hv : s.trace.view = none) (keep : Bool) :
    (abandonLanes keep s).trace.view = none ∧
    (abandonLanes keep s).accum.clippedContent = s.accum.clippedContent := by
  have acq : (abandonAcquisition keep s).trace.view = none ∧
      (abandonAcquisition keep s).accum.clippedContent = s.accum.clippedContent := by
    unfold abandonAcquisition
    split
    · have ended := endRunOf_held (s := stopSettle (spacingElapsed (deassertTestActive
        { s with seq.acq := none }))) (by simpa using hv)
      obtain ⟨trace, -, -, clipped, -⟩ := ended
      cases keep <;> simp [dropAcquisition, trace, hv, clipped, setReady, liftGuard]
    · exact ⟨hv, rfl⟩
  obtain ⟨view, clipped⟩ := acq
  refine ⟨by simpa [abandonLanes] using view, ?_⟩
  rw [← clipped]
  unfold abandonLanes abandonComparison
  split
  · simp [setReady]
  · rfl

/-! ### What the plan's applications leave of the other blocks (R8, R10, R15) -/

/-- A record's application moves flags of its slot alone, and no finding. -/
theorem applyRecord_blocks (k : SlotIx) (s : State) :
    (applyRecord k s).accum = { s.accum with ready := (applyRecord k s).accum.ready } ∧
    (applyRecord k s).verdict = { s.verdict with table := (applyRecord k s).verdict.table } := by
  unfold applyRecord
  dsimp only
  split <;> exact ⟨rfl, rfl⟩

theorem applyRecords_blocks (l : List SlotIx) (s : State) :
    (applyRecords l s).accum = { s.accum with ready := (applyRecords l s).accum.ready } ∧
    (applyRecords l s).verdict = { s.verdict with table := (applyRecords l s).verdict.table } := by
  induction l generalizing s with
  | nil => exact ⟨rfl, rfl⟩
  | cons k rest ih =>
    have one : (applyRecordIfDue k s).accum = { s.accum with ready := (applyRecordIfDue k s).accum.ready } ∧
        (applyRecordIfDue k s).verdict = { s.verdict with table := (applyRecordIfDue k s).verdict.table } := by
      unfold applyRecordIfDue
      split
      · exact applyRecord_blocks k s
      · exact ⟨rfl, rfl⟩
    obtain ⟨accum, verdict⟩ := ih (applyRecordIfDue k s)
    refine ⟨?_, ?_⟩
    · rw [applyRecords, accum, one.1]
    · rw [applyRecords, verdict, one.2]

/-- The header's application moves the ring fill alone of the Findings Unit (R152). -/
theorem applyHeaderIfDue_findings (s : State) : (applyHeaderIfDue s).findings =
    { s.findings with fill := (applyHeaderIfDue s).findings.fill } := by
  unfold applyHeaderIfDue applyHeader presentRing
  split_ifs <;> rfl

/-- The plan applied outside SWEEPING moves the ring fill, ready flags and the verdict table's flags, and nothing else
of those blocks (R10). -/
theorem applyOutside_blocks (s : State) :
    (applyOutside s).findings = { s.findings with fill := (applyOutside s).findings.fill } ∧
    (applyOutside s).accum = { s.accum with ready := (applyOutside s).accum.ready } ∧
    (applyOutside s).verdict = { s.verdict with table := (applyOutside s).verdict.table } := by
  unfold applyOutside applyDirty
  split_ifs
  · exact ⟨rfl, rfl, rfl⟩
  · exact ⟨rfl, rfl, rfl⟩
  · obtain ⟨accum, verdict⟩ := applyRecords_blocks (List.finRange 24) (applyZonesIfDue (applyHeaderIfDue s))
    refine ⟨?_, ?_, ?_⟩
    · simpa using applyHeaderIfDue_findings s
    · rw [accum]
      simp
    · rw [verdict]
      simp

/-- The fields beside those that the applications move (R10). -/
@[simp] theorem applyOutside_kept (s : State) :
    (applyOutside s).findings.seq = s.findings.seq ∧ (applyOutside s).findings.headWord = s.findings.headWord ∧
    (applyOutside s).findings.headBase = s.findings.headBase ∧
    (applyOutside s).findings.resetCapture = s.findings.resetCapture ∧
    (applyOutside s).findings.ringFull = s.findings.ringFull ∧
    (applyOutside s).findings.captureNotice = s.findings.captureNotice ∧
    (applyOutside s).findings.posted = s.findings.posted ∧ (applyOutside s).findings.deferred = s.findings.deferred ∧
    (applyOutside s).accum.clippedContent = s.accum.clippedContent ∧
    (applyOutside s).verdict.judgements = s.verdict.judgements ∧
    (applyOutside s).verdict.inputs = s.verdict.inputs := by
  obtain ⟨findings, accum, verdict⟩ := applyOutside_blocks s
  rw [findings, accum, verdict]
  exact ⟨rfl, rfl, rfl, rfl, rfl, rfl, rfl, rfl, rfl, rfl, rfl⟩

/-! ### All work ended -/

/-- Where all work ends with no view read held: the background slot, the guards and the adds are gone, the pair record
of a sweep is cleared, and no read is held (R24, R44, R80, R93, R130, R169). -/
structure WorkEnded (s t : State) : Prop where
  bg : t.trace.bg = none
  view : t.trace.view = none
  guards : t.path.guards = []
  queue : t.accum.queue = []
  add : t.accum.add = none
  clipped : t.accum.clippedContent = s.accum.clippedContent
  inputs : s.seq.state = .sweeping → t.verdict.inputs = Vector.replicate 24 none

theorem endAllWork_ended {s : State} (hv : s.trace.view = none) : WorkEnded s (endAllWork s) := by
  obtain ⟨view, clipped⟩ := abandonLanes_held hv false
  set u := if s.seq.state = .sweeping then clearPairs (abandonLanes false s) else abandonLanes false s with hu
  have uview : u.trace.view = none := by rw [hu]; split <;> simpa using view
  have uclip : u.accum.clippedContent = s.accum.clippedContent := by rw [hu]; split <;> simpa using clipped
  obtain ⟨trace, queue, add, content, -⟩ := endRunOf_held uview
  have bg : (endBackground (endRunOf u)).trace.bg = none := by
    unfold endBackground
    split
    · rfl
    · assumption
  have accum : (endBackground (endRunOf u)).accum = (endRunOf u).accum := by simp
  exact {
    bg := bg
    view := by change (endBackground (endRunOf u)).trace.view = none; simp [trace, uview]
    guards := rfl
    queue := by change (endBackground (endRunOf u)).accum.queue = []; rw [accum, queue]
    add := by change (endBackground (endRunOf u)).accum.add = none; rw [accum, add]
    clipped := by change (endBackground (endRunOf u)).accum.clippedContent = _; rw [accum, content, uclip]
    inputs := fun hs => by
      change (endBackground (endRunOf u)).verdict.inputs = _
      simp [hu, hs, clearPairs] }

/-- Outside SWEEPING, with no operation in the background and no read held, nothing goes further. -/
theorem advance_rested {u : State} (hs : u.seq.state ≠ .sweeping) (hb : u.trace.bg = none) (hv : u.trace.view = none) :
    advance u = u :=
  advance_settled (settled_outside hs hv fun b h => by simp [hb] at h)

/-- An accepted command that leaves the part at rest, with nothing in the background. -/
theorem exec_rested {s u : State} (h : BusReady s) (c : CommandName) (operand spare tag : BitVec 8)
    (hr : runCommand c operand s = (u, .accepted)) (hs : u.seq.state ≠ .sweeping) (hb : u.trace.bg = none)
    (hv : u.trace.view = none) :
    exec (commandInstr c operand spare tag) s = .next (answered c operand spare tag .accepted u) :=
  exec_accepted h c operand spare tag hr (settled_report (settled_outside hs hv fun b h => by simp [hb] at h))

/-- The fields of an answered command's state are those its owner left, but for the outcome, the PASS request and the
image. -/
@[simp] theorem answered_frame (c : CommandName) (operand spare tag : BitVec 8) (o : CmdOutcome) (u : State) :
    (answered c operand spare tag o u).plan = { u.plan with lastCommand := ⟨c.code, tag, o⟩ } ∧
    (answered c operand spare tag o u).seq = u.seq ∧ (answered c operand spare tag o u).opt = u.opt ∧
    (answered c operand spare tag o u).intake = u.intake ∧ (answered c operand spare tag o u).accum = u.accum ∧
    (answered c operand spare tag o u).trace = u.trace ∧ (answered c operand spare tag o u).verdict = u.verdict ∧
    (answered c operand spare tag o u).findings = u.findings ∧
    (answered c operand spare tag o u).path = { u.path with pass := some (commandWrite c operand spare tag) } ∧
    (answered c operand spare tag o u).mem = u.mem ∧ (answered c operand spare tag o u).pins = u.pins ∧
    (answered c operand spare tag o u).freeIndex = u.freeIndex ∧
    (answered c operand spare tag o u).pending = u.pending := by
  unfold answered
  simp only [report_frame]
  exact ⟨rfl, rfl, rfl, rfl, rfl, rfl, rfl, rfl, rfl, rfl, rfl, rfl, rfl⟩

@[simp] theorem parkSwitch_switch (s : State) : (parkSwitch s).opt.port = 63 ∧ (parkSwitch s).opt.settled = false ∧
    (parkSwitch s).opt.settleTimer = none ∧ (parkSwitch s).opt.testActive = s.opt.testActive ∧
    (parkSwitch s).opt.spacingTimer = s.opt.spacingTimer := ⟨rfl, rfl, rfl, rfl, rfl⟩

@[simp] theorem restSequencer_marks (st : SeqState) (s : State) : (restSequencer st s).seq.cursor = 0 ∧
    (restSequencer st s).seq.orderEnded = false ∧ (restSequencer st s).seq.quietEnd = false ∧
    (restSequencer st s).seq.entered = false := ⟨rfl, rfl, rfl, rfl⟩

/-- Settles O12: all work ended with the switch parked and the sources quenched, the sequencer at rest in OFF. -/
theorem disableEndsInOff : Obligations.DisableEndsInOff := by
  intro operand spare tag s ready
  have ended := endAllWork_ended ready.noView
  have intake := endAllWork_intake s
  set v : State := restSequencer .off { parkSwitch (quenchOptics (endAllWork s)) with
    opt.dutyTimer := none, opt.dutyCount := ⟨0, 0, 0⟩ } with hv
  have hr : runCommand .disable operand s = (applyOutside v, .accepted) := rfl
  have run := exec_rested ready .disable operand spare tag hr (by simp [hv]) (by simp [hv, ended.bg])
    (by simp [hv, ended.view])
  have same : ∀ a, readByte v.mem a = readByte s.mem a := fun a => by simp [hv]
  refine ⟨_, run, ?_⟩
  rw [SameMemory]
  simp only [answered_frame, applyOutside_frame, applyOutside_kept]
  and_intros
  all_goals simp +contextual [hv, ended.bg, ended.guards, ended.queue, ended.add, intake, ended.inputs]

/-! ### REINIT's own clearing (R44, R91, R105, R153) -/

/-- Ready flags that are all clear stay clear as the plan applies (R15). -/
theorem applyOutside_ready_clear {s : State} (h : s.accum.ready = Vector.replicate 24 false) :
    (applyOutside s).accum.ready = Vector.replicate 24 false := by
  have set : ∀ k : SlotIx, (Vector.replicate 24 false).set k false = Vector.replicate 24 false := by decide
  have records : ∀ (l : List SlotIx) (u : State), u.accum.ready = Vector.replicate 24 false →
      (applyRecords l u).accum.ready = Vector.replicate 24 false := by
    intro l
    induction l with
    | nil => exact fun _ hu => hu
    | cons k rest ih =>
      intro u hu
      refine ih _ ?_
      unfold applyRecordIfDue applyRecord
      dsimp only
      split_ifs
      · exact hu
      · simp [hu, set]
      · exact hu
  unfold applyOutside applyDirty
  split_ifs
  · exact h
  · exact h
  · exact records _ _ (by simpa using h)

/-- A capture record queued stands in the queue (R150). -/
theorem mem_queueCapture (c : Option Capture) (s : State) (hn : ∀ d n, .capture d n ∈ s.findings.queue → n = false) :
    .capture c false ∈ (queueCapture c false s).findings.queue := by
  unfold queueCapture
  dsimp only
  split
  · rename_i h
    obtain ⟨r, hr, hc⟩ := List.any_eq_true.1 h
    refine List.mem_map.2 ⟨r, hr, ?_⟩
    cases r with
    | capture d n => simp [hn d n hr]
    | finding f => cases hc
    | summary sm n => cases hc
  · simp

/-- A queued capture record leaves the other records as they were (R150). -/
theorem mem_of_queueCapture {c : Option Capture} {notice : Bool} {s : State} {r : QRecord}
    (h : r ∈ (queueCapture c notice s).findings.queue) (hr : r.isCapture = false) : r ∈ s.findings.queue := by
  unfold queueCapture at h
  dsimp only at h
  split at h
  · obtain ⟨q, hq, rfl⟩ := List.mem_map.1 h
    cases q <;> simp_all [QRecord.isCapture]
  · obtain h | h := List.mem_append.1 h
    · exact h
    · simp_all [QRecord.isCapture]

/-- With every notice request withdrawn no queued record keeps one (R153). -/
theorem withdrawNotices_none {s : State} {r : QRecord} (h : r ∈ (withdrawNotices s).findings.queue) :
    (∀ d n, r = .capture d n → n = false) ∧ ∀ sm n, r = .summary sm n → n = false := by
  obtain ⟨q, -, rfl⟩ := List.mem_map.1 h
  cases q <;> simp_all

@[simp] theorem clearMarks_marks (s : State) : (clearMarks s).trace.summary = CondSet.empty ∧
    (clearMarks s).trace.capture = none ∧ (clearMarks s).trace.captureOverrun = false ∧
    (clearMarks s).trace.squeezed = false ∧ (clearMarks s).intake = { s.intake with stray := false } ∧
    (clearMarks s).path.strayAccess = false ∧ (clearMarks s).path.guardHit = false ∧
    (clearMarks s).findings = { s.findings with captureNotice := false } :=
  ⟨rfl, rfl, rfl, rfl, rfl, rfl, rfl, rfl⟩

@[simp] theorem queueCapture_notice (c : Option Capture) (notice : Bool) (s : State) :
    (queueCapture c notice s).findings.captureNotice = s.findings.captureNotice ∧
    (queueCapture c notice s).findings.seq = s.findings.seq := ⟨rfl, rfl⟩

@[simp] theorem withdrawNotices_notice (s : State) :
    (withdrawNotices s).findings.captureNotice = s.findings.captureNotice ∧
    (withdrawNotices s).findings.seq = s.findings.seq := ⟨rfl, rfl⟩

/-- Settles O13: all work ended as for DISABLE, with the marks, flags and notices cleared besides. -/
theorem reinitRestsBlocks : Obligations.ReinitRestsBlocks := by
  intro operand spare tag s ready
  have ended := endAllWork_ended ready.noView
  have intake := endAllWork_intake s
  set w : State := withdrawNotices (clearMarks { parkSwitch (quenchOptics (endAllWork s)) with
    accum.ready := Vector.replicate 24 false
    findings.sweepEndNotice := false }) with hw
  set v : State := restSequencer (if s.seq.state = .off then .off else .idle) (queueCapture none false w) with hv
  have hr : runCommand .reinit operand s = (applyOutside v, .accepted) := rfl
  have run := exec_rested ready .reinit operand spare tag hr (by simp [hv]; split <;> simp)
    (by simp [hv, hw, ended.bg]) (by simp [hv, hw, ended.view])
  have clear : (applyOutside v).accum.ready = Vector.replicate 24 false :=
    applyOutside_ready_clear (by simp [hv, hw])
  have queued : .capture none false ∈ v.findings.queue :=
    mem_queueCapture none w fun d n hm => (withdrawNotices_none hm).1 d n rfl
  have summaries : ∀ r ∈ v.findings.queue, ∀ sm n, r = .summary sm n → n = false := by
    rintro r hm sm n rfl
    exact (withdrawNotices_none (mem_of_queueCapture hm rfl)).2 sm n rfl
  refine ⟨_, run, ?_⟩
  rw [SameMemory]
  simp only [answered_frame, applyOutside_frame, applyOutside_kept]
  and_intros
  all_goals first
    | assumption
    | simp +contextual [hv, hw, ended.bg, ended.guards, ended.queue, ended.add, ended.clipped, ended.inputs, intake]

end Sys2Proof.Machine
end

section
/-! PROOFS. CLEAR CONDITIONS: the marks cleared and an invalid capture record queued, every other record kept (R105, R150,
R153; log entries 9, 10). -/

namespace Sys2Proof.Machine

/-! ### A capture record joins the queue (R150) -/

/-- A map that keeps each record's kind, and every record that is no capture record, keeps the records that are none. -/
theorem filter_map_capture {f : QRecord → QRecord} (hk : ∀ r, (f r).isCapture = r.isCapture)
    (hf : ∀ r, r.isCapture = false → f r = r) (q : List QRecord) :
    (q.map f).filter (fun r => !r.isCapture) = q.filter (fun r => !r.isCapture) := by
  induction q with
  | nil => rfl
  | cons r rest ih =>
    simp only [List.map_cons, List.filter_cons, hk, ih]
    cases hr : r.isCapture with
    | true => simp
    | false => simp [hf r hr]

/-- The records that are no capture record stay, in their order, as a capture record joins the queue. -/
theorem queueCapture_others (c : Option Capture) (notice : Bool) (s : State) :
    (queueCapture c notice s).findings.queue.filter (fun r => !r.isCapture) =
      s.findings.queue.filter (fun r => !r.isCapture) := by
  unfold queueCapture
  dsimp only
  split
  · refine filter_map_capture (fun r => ?_) (fun r hr => ?_) _
    · cases r <;> rfl
    · cases r with
      | capture => cases hr
      | finding | summary => rfl
  · simp [QRecord.isCapture]

/-- Every capture record of the queue is the one that has joined it; its notice is one that was asked for. -/
theorem capture_of_queueCapture {c d : Option Capture} {notice n : Bool} {s : State}
    (h : .capture d n ∈ (queueCapture c notice s).findings.queue) :
    d = c ∧ (n = true → notice = true ∨ ∃ e, .capture e true ∈ s.findings.queue) := by
  unfold queueCapture at h
  dsimp only at h
  split at h
  · obtain ⟨r, hr, e⟩ := List.mem_map.1 h
    cases r with
    | capture x m =>
      injection e with e1 e2
      refine ⟨e1.symm, fun hn => ?_⟩
      rw [hn, Bool.or_eq_true] at e2
      exact e2.elim (fun hm => .inr ⟨x, hm ▸ hr⟩) .inl
    | finding f => cases e
    | summary sm m => cases e
  · rename_i hno
    obtain h | h := List.mem_append.1 h
    · exact absurd (List.any_eq_true.2 ⟨_, h, rfl⟩) hno
    · injection List.mem_singleton.1 h with e1 e2
      exact ⟨e1, fun hn => .inl (e2 ▸ hn)⟩

/-- The findings block as a capture record joins its queue. -/
theorem queueCapture_findings (c : Option Capture) (notice : Bool) (s : State) :
    (queueCapture c notice s).findings = { s.findings with
      queue := (queueCapture c notice s).findings.queue
      headWord := (queueCapture c notice s).findings.headWord
      resetCapture := 0 } := rfl

/-! ### CLEAR CONDITIONS -/

/-- With the notices of capture records withdrawn none keeps one (R153). -/
theorem withdrawCaptureNotice_none {s : State} {d : Option Capture} {n : Bool}
    (h : .capture d n ∈ (withdrawCaptureNotice s).findings.queue) : n = false := by
  obtain ⟨q, -, e⟩ := List.mem_map.1 h
  cases q with
  | capture x m => injection e with _ e2; exact e2.symm
  | finding f => cases e
  | summary sm m => cases e

/-- The withdrawal keeps the records that are no capture record. -/
theorem withdrawCaptureNotice_others (s : State) :
    (withdrawCaptureNotice s).findings.queue.filter (fun r => !r.isCapture) =
      s.findings.queue.filter (fun r => !r.isCapture) := by
  refine filter_map_capture (fun r => ?_) (fun r hr => ?_) _
  · cases r <;> rfl
  · cases r with
    | capture => cases hr
    | finding | summary => rfl

/-- Settles O19: the invalid record takes the place of a capture record that waits, or joins the queue. -/
theorem clearConditions : Obligations.ClearConditions := by
  intro operand spare tag s ready settled
  set w := withdrawCaptureNotice (clearMarks s) with hw
  have withdrawn : ∀ d n, .capture d n ∈ w.findings.queue → n = false := fun d n h => withdrawCaptureNotice_none h
  have run : exec (commandInstr .clearConditions operand spare tag) s = _ :=
    exec_accepted ready .clearConditions operand spare tag (u := queueCapture none false w) rfl
      (settled_report (settled_of settled (by simp [hw]) (by simp [hw]) (by simp [hw])))
  refine ⟨_, run, ?_⟩
  simp only [answered_frame, queueCapture_frame]
  refine ⟨rfl, rfl, rfl, rfl, mem_queueCapture none w withdrawn, fun c n h => ?_, ?_, ?_,
    rfl, rfl, rfl, rfl, rfl, rfl, rfl, rfl, rfl⟩
  · obtain ⟨invalid, notice⟩ := capture_of_queueCapture h
    refine ⟨invalid, Bool.eq_false_iff.2 fun hn => ?_⟩
    obtain hf | ⟨e, he⟩ := notice hn
    · cases hf
    · cases withdrawn e true he
  · rw [queueCapture_others, hw, withdrawCaptureNotice_others]
    rfl
  · change (if headIs QRecord.isCapture (s.findings.queue.map _) then 0 else s.findings.headWord) = _
    cases s.findings.queue with
    | nil => rfl
    | cons r rest => cases r <;> rfl

end Sys2Proof.Machine
end

section
/-! PROOFS. What stops and ends an operation, as the statements say it: a condition's stop, the result a comparison hands
on, the verdict posted for it, and reports made on the way (R100 to R104, R113, R118, R142 to R145, R156). -/

namespace Sys2Proof.Machine

/-! ### Reports on the way (R156) -/

/-- The mirror a report leaves. -/
theorem report_mirror (s : State) : (report s).mirror = ⟨Vector.ofFn fun i : Fin 224 => statusWord s i.val,
    Vector.ofFn fun i : Fin 224 => s.mirror.dirty[i] || s.mirror.image[i] != statusWord s i.val⟩ := rfl

/-- A report made on the way, from `v`, leaves the next one, from `u`, as it would be, where each word that `v` shows is
the one shown before or the one that `u` shows. -/
theorem report_through {v u : State} {m : MirrorState} (hv : v.mirror = m)
    (h : ∀ i : Fin 224, m.image[i] = statusWord v i.val ∨ statusWord v i.val = statusWord u i.val) :
    report { u with mirror := (report v).mirror } = report { u with mirror := m } := by
  have words : ∀ n i, statusWord { u with mirror := n } i = statusWord u i := statusWord_mirror u
  have same : (report { u with mirror := (report v).mirror }).mirror = (report { u with mirror := m }).mirror := by
    refine (report_mirror _).trans (Eq.trans ?_ (report_mirror _).symm)
    refine congrArg₂ MirrorState.mk (Vector.ext fun i hi => ?_) (Vector.ext fun i hi => ?_)
    · simp only [Vector.getElem_ofFn, words]
    · have image : (report v).mirror.image[i] = statusWord v i := by simp
      have dirty : (report v).mirror.dirty[i] = (m.dirty[i] || m.image[i] != statusWord v i) := by
        rw [report_mirror v]
        simp [hv]
      simp only [Vector.getElem_ofFn, words, Fin.getElem_fin, image, dirty]
      obtain e | e := h ⟨i, hi⟩
      · simp only [Fin.getElem_fin] at e
        simp [e]
      · rw [e]
        simp
  exact report_eq { u with mirror := m } _ same

/-- An answer is the same from a state whose mirror reports alike. -/
theorem answered_through {c : CommandName} {operand spare tag : BitVec 8} {v u : State} {m : MirrorState}
    (hv : v.mirror = m)
    (h : ∀ i : Fin 224, m.image[i] = statusWord v i.val ∨ statusWord v i.val = statusWord u i.val) :
    answered c operand spare tag .accepted { u with mirror := (report v).mirror } =
      answered c operand spare tag .accepted { u with mirror := m } := by
  rw [← answered_report, report_through hv h, answered_report]

/-! ### Verdicts posted (R143 to R145) -/

/-- A result posted by itself gives the verdict of the statements (R138, R142). -/
theorem verdictOf_eq (r : Result) : verdictOf r = unpairedVerdict r := by
  unfold verdictOf unpairedVerdict CondSet.isEmpty
  cases r.masked.saturated <;> cases r.masked.gap <;> cases r.masked.clipped <;> rfl

/-- Two points are further apart than a tolerance on one side or the other. -/
theorem pointDistance_gt (a b t : Nat) : t < pointDistance a b ↔ a + t < b ∨ b + t < a := by
  unfold pointDistance
  omega

/-- When a finding is due (R143). -/
theorem findingDue_iff (r : Record16) (e : VerdictEntry) (v : Verdict) : findingDue r e v = true ↔
    recEvery r = true ∨ (comparedWith e).1 ≠ v.kind ∨
      ((v.kind = .reflection ∨ v.kind = .loss ∨ v.kind = .bend ∨ v.kind = .brk ∨ v.kind = .anomaly) ∧
        (v.location + recRelocateTolerance r < (comparedWith e).2 ∨
          (comparedWith e).2 + recRelocateTolerance r < v.location)) := by
  have located : locatedKind v.kind = true ↔
      (v.kind = .reflection ∨ v.kind = .loss ∨ v.kind = .bend ∨ v.kind = .brk ∨ v.kind = .anomaly) := by
    cases v.kind <;> simp [locatedKind]
  simp only [findingDue, Bool.or_eq_true, Bool.and_eq_true, bne_iff_ne, decide_eq_true_eq, gt_iff_lt, located,
    pointDistance_gt, or_assoc]

/-- The posting decision leaves what the statements say of it (R143, R145, R149). -/
theorem verdictPosted_self (k : SlotIx) (v : Verdict) (s : State) : VerdictPosted k v s (postVerdict k v s) := by
  unfold VerdictPosted postVerdict
  have due := findingDue_iff (activeRecord s k) s.verdict.table[k] v
  have room : findingAnswer s = true ↔ occupancy s + findingsWaiting s < ringCapacity s := by
    simp [findingAnswer, ringRoom]
  unfold comparedWith at due
  refine ⟨fun hd hr => ?_, fun hd hr => ?_, fun hd => ?_⟩
  · rw [if_pos (due.2 hd), if_pos (room.2 hr)]
    exact ⟨formFinding s k v, rfl, rfl, rfl, rfl, rfl, rfl, rfl, rfl, rfl, rfl, rfl, rfl, rfl, rfl, rfl, rfl, rfl⟩
  · rw [if_pos (due.2 hd), if_neg (fun h => hr (room.1 h))]
    exact ⟨rfl, rfl⟩
  · rw [if_neg (fun h => hd (due.1 h))]
    exact ⟨rfl, rfl⟩

/-- The posting decision reads the plan, the findings block and the verdict table, and is seen in the last two. -/
theorem verdictPosted_of {k : SlotIx} {v : Verdict} {s t u : State} (hp : u.plan = s.plan)
    (hf : u.findings = s.findings) (hv : u.verdict = s.verdict) (tf : t.findings = (postVerdict k v u).findings)
    (tv : t.verdict = (postVerdict k v u).verdict) : VerdictPosted k v s t := by
  have h := verdictPosted_self k v u
  unfold VerdictPosted occupancy findingsWaiting ringCapacity activeRecord activeHeader at h ⊢
  rw [hp, hf, hv] at h
  rw [tf, tv]
  exact h

/-! ### Conditions (R100 to R104) -/

/-- A condition raised (R100). -/
theorem raiseCondition_trace (c : Condition) (k : SlotIx) (s : State) : (raiseCondition c k s).trace = raised c k s := rfl

/-- A state with a condition raised, written out. -/
theorem raiseCondition_eq (c : Condition) (k : SlotIx) (s : State) :
    raiseCondition c k s = { s with trace := raised c k s } := rfl

/-- A stop with no valid capture record fills it, and it waits with its notice request (R104). -/
theorem captureStop_first {b : Background} {point : Nat} {c : Condition} {s : State} (h : s.trace.capture = none) :
    captureStop b point c s = queueCapture (some ⟨b.op, b.slot, s.seq.sweepNumber, point, c⟩) true
      { s with trace.capture := some ⟨b.op, b.slot, s.seq.sweepNumber, point, c⟩ } := by
  simp [captureStop, h]

/-- A stop with a valid capture record sets the overrun flag (R104). -/
theorem captureStop_later {b : Background} {point : Nat} {c : Condition} {s : State} (h : s.trace.capture ≠ none) :
    captureStop b point c s = { s with trace.captureOverrun := true } := by
  obtain ⟨x, hx⟩ := Option.ne_none_iff_exists'.1 h
  simp [captureStop, hx]

/-- A capture record queued with its notice request waits with it. -/
theorem mem_queueCapture_notice (c : Option Capture) (s : State) :
    .capture c true ∈ (queueCapture c true s).findings.queue := by
  unfold queueCapture
  dsimp only
  split
  · rename_i h
    obtain ⟨r, hr, hc⟩ := List.any_eq_true.1 h
    refine List.mem_map.2 ⟨r, hr, ?_⟩
    cases r with
    | capture d n => simp
    | finding f => cases hc
    | summary sm n => cases hc
  · simp

/-- What a stop leaves, from the state `w` in which it is met: there the Trace Engine is that of `s` but for its
background slot, and the capture record is filled next (R103, R104). -/
theorem stopped_of {c : Condition} {b : Background} {point : Nat} {s w t : State}
    (trace : w.trace = { s.trace with bg := w.trace.bg }) (findings : w.findings = s.findings)
    (sweep : w.seq.sweepNumber = s.seq.sweepNumber)
    (tt : t.trace = { (captureStop b point c (raiseCondition c b.slot w)).trace with
      bg := none
      glitchCount := t.trace.glitchCount })
    (tf : t.findings = (captureStop b point c (raiseCondition c b.slot w)).findings) : Stopped c b point s t := by
  generalize w.trace.bg = bg at trace
  generalize hg : t.trace.glitchCount = g at tt
  have marks : (raiseCondition c b.slot w).trace = { raised c b.slot s with bg := bg } := by
    rw [raiseCondition_trace]
    unfold raised
    rw [trace]
  by_cases h : s.trace.capture = none
  · rw [captureStop_first (by rw [marks]; exact h)] at tt tf
    have tq : t.findings = { s.findings with
        queue := t.findings.queue, headWord := t.findings.headWord, resetCapture := 0 } := by
      rw [tf, queueCapture_findings]
      exact findings ▸ rfl
    have tt' : t.trace = { raised c b.slot s with
        bg := none, capture := some ⟨b.op, b.slot, s.seq.sweepNumber, point, c⟩, glitchCount := g } := by
      rw [tt, ← sweep]
      exact congrArg (fun x : TraceState => { x with
        bg := none, capture := some ⟨b.op, b.slot, w.seq.sweepNumber, point, c⟩, glitchCount := g }) marks
    refine ⟨?_, fun _ => ⟨?_, ?_, ?_, tq, ?_⟩, fun hn => absurd h hn⟩
    · rw [hg, tt']
    · rw [tt']
    · rw [tt']
      rfl
    · rw [tt', tf, ← sweep]
      exact mem_queueCapture_notice _ _
    · rw [tf, queueCapture_others]
      exact congrArg (fun f : FindingsState => f.queue.filter _) findings
  · rw [captureStop_later (by rw [marks]; exact h)] at tt tf
    have tt' : t.trace = { raised c b.slot s with bg := none, captureOverrun := true, glitchCount := g } := by
      rw [tt]
      exact congrArg (fun x : TraceState => { x with bg := none, captureOverrun := true, glitchCount := g }) marks
    refine ⟨?_, fun hn => absurd hn h, fun _ => ⟨?_, ?_, ?_⟩⟩
    · rw [hg, tt']
    · rw [tt']
      rfl
    · rw [tt']
    · rw [tf]
      exact findings

/-- A stop leaves the counts and marks of the Trace Engine alone (R104). -/
@[simp] theorem captureStop_kept (b : Background) (point : Nat) (c : Condition) (s : State) :
    (captureStop b point c s).trace.glitchCount = s.trace.glitchCount ∧
    (captureStop b point c s).trace.seen = s.trace.seen ∧
    (captureStop b point c s).trace.clipNote = s.trace.clipNote := by
  unfold captureStop
  split <;> simp

@[simp] theorem raiseCondition_glitchCount (c : Condition) (k : SlotIx) (s : State) :
    (raiseCondition c k s).trace.glitchCount = s.trace.glitchCount := rfl

/-- A condition that is not met leaves the operation as it is. -/
@[simp] theorem testCondition_false (c : Condition) (b : Background) (point : Nat) (s : State) :
    testCondition false c b point s = (s, some b) := rfl

/-- A condition met anew under STOPPING stops the operation (R100, R103). -/
theorem testCondition_stops {c : Condition} {b : Background} (hr : b.raised.has c = false)
    (hs : b.stopping.has c = true) (point : Nat) (s : State) : testCondition true c b point s =
      (stopOperation { b with raised := b.raised.insert c } point c (raiseCondition c b.slot s), none) := by
  simp [testCondition, meetCondition, hr, hs]

/-- A condition met anew under MASKED joins the operation's masked set (R100, R102). -/
theorem testCondition_masks {c : Condition} {b : Background} (hr : b.raised.has c = false)
    (hs : b.stopping.has c = false) (point : Nat) (s : State) : testCondition true c b point s =
      (raiseCondition c b.slot s, some { b with raised := b.raised.insert c, masked := b.masked.insert c }) := by
  simp [testCondition, meetCondition, hr, hs]

@[simp] theorem onGoing_some (s : State) (b : Background) (rest : Background → State → State) :
    onGoing (s, some b) rest = rest b s := rfl

@[simp] theorem onGoing_none (s : State) (rest : Background → State → State) : onGoing (s, none) rest = s := rfl

/-! ### Results handed on (R113, R118) -/

/-- The end of the current run leaves the search alone. -/
theorem endRun_search (c : Nat) (x : Comparison) : (endRun c x).search = x.search ∧ (endRun c x).leading = x.leading ∧
    (endRun c x).decided = x.decided := by
  unfold endRun
  split <;> exact ⟨rfl, rfl, rfl⟩

/-- The end of the current run judges it (R112). -/
theorem endRun_glitches (c : Nat) (x : Comparison) : (endRun c x).glitches = glitchesAtEnd c x := by
  unfold endRun glitchesAtEnd
  cases run : x.run with
  | none => rfl
  | some r =>
    dsimp only
    cases r.cls <;> simp [departing]

/-- The result of a comparison at the end of its range, as the statements give it (R114, R118). -/
theorem resultOf_finish (s : State) (b : Background) :
    resultOf s b (decidedAtEnd (recConfirm b.record) (endRun (recConfirm b.record) b.cmp)) .none
      (endRun (recConfirm b.record) b.cmp).glitches = comparisonResult b b.cmp s.seq.sweepNumber := by
  obtain ⟨search, leading, decided⟩ := endRun_search (recConfirm b.record) b.cmp
  have same : decidedAtEnd (recConfirm b.record) (endRun (recConfirm b.record) b.cmp) =
      decidedAtEnd (recConfirm b.record) b.cmp := by
    unfold decidedAtEnd
    rw [search, leading, decided]
  unfold resultOf comparisonResult
  rw [same, endRun_glitches]

/-- A comparison ends with the result of its record (R118). -/
theorem finishCompare_eq (b : Background) (s : State) :
    finishCompare b s = endCompare b (comparisonResult b b.cmp s.seq.sweepNumber) s := by
  unfold finishCompare
  dsimp only
  rw [resultOf_finish]

/-- A plan settles with what its own state says. -/
theorem planSettled_of {s t : State} (h : PlanSettled s) (hp : t.plan = s.plan) : PlanSettled t := by
  unfold PlanSettled holdFlag activeHeader headerDue at *
  rwa [hp]

/-- A COMPARE-COMMAND that hands on a result, with nothing of the plan to apply: its guard is lifted and its result
posted (R128, R142). -/
theorem endCompare_command {b : Background} (hb : b.op = .compareCommand) (r : Result) {s : State} (h : PlanSettled s) :
    endCompare b r s = setBg none (postVerdict b.slot (unpairedVerdict r) (liftGuard .compareCommand b.slot
      { s with trace.glitchCount := s.trace.glitchCount.set b.slot r.glitches })) := by
  unfold endCompare
  dsimp only
  rw [if_pos hb, verdictOf_eq, applyOutside_settled]
  exact planSettled_of h (by simp)

/-- A COMPARE-RUN hands its result to the slot in COMPARING (R33, R118). -/
theorem endCompare_run {b : Background} (hb : b.op ≠ .compareCommand) (r : Result) (s : State) :
    endCompare b r s = setBg none (reportResult b.slot r
      { s with trace.glitchCount := s.trace.glitchCount.set b.slot r.glitches }) :=
  if_neg hb

/-- An ADOPT ended with nothing of the plan to apply (R126). -/
theorem endAdopt_settled (b : Background) {s : State} (h : PlanSettled s) :
    endAdopt b s = setBg none (liftGuard .adopt b.slot s) := by
  unfold endAdopt
  rw [applyOutside_settled]
  exact planSettled_of h (by simp)

end Sys2Proof.Machine
end

section
/-! PROOFS. ADOPT and COMPARE begin, or are stopped by CLIPPED, or have nothing to compare (R100, R122, R123, R127, R128,
R142). -/

namespace Sys2Proof.Machine

/-! ### The slot operand, and the state as the operation takes the background slot -/

/-- A slot's number as the operand names that slot (R19). -/
theorem withSlot_ofNat (k : SlotIx) (f : SlotIx → State → Answer) (s : State) :
    withSlot (BitVec.ofNat 8 k.val) f s = f k s := by
  have hk : (BitVec.ofNat 8 k.val).toNat = k.val := by
    have := k.isLt
    simp only [BitVec.toNat_ofNat]
    omega
  unfold withSlot
  rw [dif_pos (by rw [hk]; exact k.isLt)]
  exact congrArg (fun j => f j s) (Fin.ext hk)

/-- The background operation is shown in one word alone, 0x908. -/
theorem statusWord_bg (s : State) (x : Option Background) {i : Nat} (hi : i ≠ 2) :
    statusWord { s with trace.bg := x } i = statusWord s i := by
  unfold statusWord
  split <;> [split; rfl]
  · unfold generalWord
    split <;> first | exact absurd rfl hi | rfl
  · rfl

/-- What is shown of the background operation is its kind and its slot (12.4). -/
theorem statusWord_two {s t : State} (hc : t.seq.comp = s.seq.comp)
    (hb : t.trace.bg.map (fun b => (b.op, b.slot)) = s.trace.bg.map (fun b => (b.op, b.slot))) :
    statusWord t 2 = statusWord s 2 := by
  have op : bgOpCode t = bgOpCode s ∧ bgSlotCode t = bgSlotCode s := by
    unfold bgOpCode bgSlotCode
    cases ht : t.trace.bg <;> cases hs : s.trace.bg <;> simp_all
  have lane : compLaneCode t = compLaneCode s := by
    unfold compLaneCode
    rw [hc]
  change BitVec.ofNat 32 (place (compLaneCode t) 0 4 + place (bgOpCode t) 8 2 + place (bgSlotCode t) 16 5) = _
  rw [lane, op.1, op.2]
  rfl

/-- A report made as an operation takes the background slot is taken up by the command's own, where the image showed the
contents (R119, R156). -/
theorem answered_taken {c : CommandName} {operand spare tag : BitVec 8} {s u : State} {b : Background}
    (hm : Mirrored s) (hc : u.seq.comp = s.seq.comp)
    (hb : u.trace.bg.map (fun b => (b.op, b.slot)) = some (b.op, b.slot)) :
    answered c operand spare tag .accepted
        { u with mirror := (report { s with trace.bg := some b }).mirror } =
      answered c operand spare tag .accepted { u with mirror := s.mirror } := by
  refine answered_through rfl fun i => ?_
  by_cases hi : i.val = 2
  · right
    rw [hi]
    exact statusWord_two hc.symm hb.symm
  · left
    rw [statusWord_bg _ _ hi, hm]
    simp

/-! ### ADOPT (R122, R123) -/

/-- Settles O20: CLIPPED is the one condition an ADOPT can meet as it starts, and the dispositions decide what follows. -/
theorem adoptBegins : Obligations.AdoptBegins := by
  intro k spare tag s ready mirrored st free isReady below met stops
  have accepts : runCommand .adopt (BitVec.ofNat 8 k.val) s = (startAdopt k s, .accepted) := by
    have hs : ¬ (s.seq.state ≠ .idle ∧ s.seq.state ≠ .halted) := by tauto
    simp [runCommand, withSlot_ofNat, commandAdopt, hs, bgFree, free, isReady]
  have rest : s.seq.state ≠ .sweeping := by rcases st with h | h <;> simp [h]
  set b0 := newBackground .adopt k s.intake.accepted[k] s with hb0
  have starts : startAdopt k s = onGoing (testCondition met .clipped b0 0 (report { s with trace.bg := some b0 }))
      fun b2 s2 => placeGuard ⟨.adopt, k, recBaseBase b2.record, recPoints b2.record⟩
        (clearSharedBased k { s2 with trace.bg := some b2 }) := rfl
  have stopping : b0.stopping.has .clipped = (headerStopping (activeHeader s)).clipped := rfl
  have needs : ∀ b : Background, b.acc = none → b.record = b0.record → b.point = 0 → traceNeed b ≠ .nothing := by
    intro b hacc hrec hpt
    have hacc0 : b0.record = activeRecord s k := rfl
    have : accAddress b < memoryEnd := by simpa [accAddress, hrec, hpt, memoryEnd, hacc0] using below
    simp [traceNeed, hacc, this]
  -- The operation goes on with `b`, from the state whose Trace Engine is `tr`.
  have goes : ∀ (b : Background) (tr : TraceState), tr.view = none → b.op = .adopt → b.slot = k → b.acc = none →
      b.record = b0.record → b.point = 0 →
      startAdopt k s = placeGuard ⟨.adopt, k, recBaseBase b.record, recPoints b.record⟩ (clearSharedBased k
        { s with trace := { tr with bg := some b }, mirror := (report { s with trace.bg := some b0 }).mirror }) →
      exec (.adopt (BitVec.ofNat 8 k.val) spare tag) s =
        .next (answered .adopt (BitVec.ofNat 8 k.val) spare tag .accepted (placeGuard
          ⟨.adopt, k, recBaseBase b.record, recPoints b.record⟩ (clearSharedBased k
            { s with trace := { tr with bg := some b } }))) := by
    intro b tr hv hop hslot hacc hrec hpt hstart
    refine (exec_accepted ready .adopt _ spare tag (accepts.trans (by rw [hstart])) ?_).trans ?_
    · refine settled_report (settled_outside ?_ ?_ ?_)
      · simpa using rest
      · simpa using hv
      · intro b' hb'
        obtain rfl : b = b' := by simpa using hb'
        exact needs b hacc hrec hpt
    · have apart : ∀ m, placeGuard ⟨.adopt, k, recBaseBase b.record, recPoints b.record⟩
          (clearSharedBased k { s with trace := { tr with bg := some b }, mirror := m }) =
          { placeGuard ⟨.adopt, k, recBaseBase b.record, recPoints b.record⟩
            (clearSharedBased k { s with trace := { tr with bg := some b } }) with mirror := m } := fun _ => rfl
      rw [apart, answered_taken mirrored (by simp) (by simp [hop, hslot, hb0, newBackground])]
      rfl
  refine ⟨fun hstops => ?_, fun hstops plan => ?_⟩
  · cases hmet : met with
    | false =>
      refine ⟨b0, rfl, rfl, rfl, rfl, rfl, rfl, rfl, rfl, rfl, ?_⟩
      refine goes b0 s.trace ready.noView rfl rfl rfl rfl rfl ?_
      rw [starts, hmet]
      rfl
    | true =>
      have hmask : b0.stopping.has .clipped = false := by
        simpa [stops, hmet, stopping] using hstops
      refine ⟨{ b0 with raised := b0.raised.insert .clipped, masked := b0.masked.insert .clipped },
        rfl, rfl, rfl, rfl, rfl, rfl, rfl, rfl, rfl, ?_⟩
      refine goes _ (raised .clipped k s) ready.noView rfl rfl rfl rfl rfl ?_
      rw [starts, hmet, testCondition_masks rfl hmask]
      rfl
  · obtain ⟨hmet, hstop⟩ : met = true ∧ b0.stopping.has .clipped = true := by
      simpa [stops, stopping] using hstops
    set b1 := { b0 with raised := b0.raised.insert .clipped } with hb1
    set w := report { s with trace.bg := some b0 } with hw
    have ends : startAdopt k s = setBg none (liftGuard .adopt k (captureStop b1 0 .clipped
        (raiseCondition .clipped b1.slot w))) := by
      rw [starts, hmet, testCondition_stops rfl hstop, onGoing_none, stopOperation]
      exact (if_pos rfl).trans (endAdopt_settled b1 (planSettled_of plan (by simp [hw])))
    have run := exec_rested ready .adopt (BitVec.ofNat 8 k.val) spare tag (accepts.trans (by rw [ends]))
      (by simpa [hw] using rest) (by simp) (by simpa [hw] using ready.noView)
    refine ⟨_, b1, run, rfl, rfl, stopped_of (w := w) ?_ ?_ ?_ ?_ ?_, ?_, ?_, ?_, ?_, ?_, ?_, ?_, ?_, ?_, ?_⟩
    all_goals simp [hw, liftGuard, setBg, report, CommandName.code]

/-! ### COMPARE (R127, R128) -/

/-- A guard placed and lifted again leaves the others of the list but those of its own holder and slot. -/
theorem filter_placed (gs : List Guard) (g : Guard) :
    (gs ++ [g]).filter (fun x => !(x.holder = g.holder && x.slot = g.slot)) =
      gs.filter (fun x => !(x.holder = g.holder && x.slot = g.slot)) := by
  simp

/-- A COMPARE-COMMAND that has ended with a result, its guard lifted again (R128, R142). -/
theorem compare_ended {b : Background} (hb : b.op = .compareCommand) {k : SlotIx} (hk : b.slot = k) (r : Result)
    {w : State} (hp : PlanSettled w) (hs : w.seq.state ≠ .sweeping) (hv : w.trace.view = none) {s : State}
    (ready : BusReady s) {spare tag : BitVec 8}
    (hr : runCommand .compare (BitVec.ofNat 8 k.val) s = (endCompare b r w, .accepted)) :
    exec (.compare (BitVec.ofNat 8 k.val) spare tag) s = .next (answered .compare (BitVec.ofNat 8 k.val) spare tag
      .accepted (setBg none (postVerdict k (unpairedVerdict r) (liftGuard .compareCommand k
        { w with trace.glitchCount := w.trace.glitchCount.set k r.glitches })))) := by
  subst hk
  rw [endCompare_command hb r hp] at hr
  exact exec_rested ready .compare _ spare tag hr (by simpa using hs) (by simp) (by simpa using hv)

/-- What a COMPARE command leaves that has posted its verdict, from the state `u` (R128, R142). -/
theorem compare_ended_leaves (k : SlotIx) (spare tag : BitVec 8) (v : Verdict) (u : State) :
    let t := answered .compare (BitVec.ofNat 8 k.val) spare tag .accepted
      (setBg none (postVerdict k v (liftGuard .compareCommand k u)))
    t.path = { u.path with
      guards := u.path.guards.filter fun g => !(g.holder = .compareCommand && g.slot = k)
      pass := some (commandWrite .compare (BitVec.ofNat 8 k.val) spare tag) } ∧
    t.plan = { u.plan with lastCommand := ⟨0x0B, tag, .accepted⟩ } ∧
    (t.accum = u.accum ∧ t.seq = u.seq ∧ t.opt = u.opt ∧ t.intake = u.intake ∧ t.mem = u.mem ∧ t.pins = u.pins) ∧
    t.trace = { u.trace with bg := none } ∧
    ∀ s : State, u.plan = s.plan → u.findings = s.findings → u.verdict = s.verdict → VerdictPosted k v s t := by
  refine ⟨?_, ?_, ?_, ?_, fun s hp hf hv => verdictPosted_of (u := liftGuard .compareCommand k u) hp hf hv ?_ ?_⟩
  all_goals simp [setBg, report, liftGuard, CommandName.code]

/-- Settles O21: CLIPPED is the one condition a COMPARE can meet as it starts, and an empty range is done at once. -/
theorem compareBegins : Obligations.CompareBegins := by
  intro k spare tag s ready halted free injected r met stops begun ended
  set g : Guard := ⟨.compareCommand, k, recAccBase r, recPoints r⟩ with hg
  set b0 := newBackground .compareCommand k (recInjected r) s with hb0
  set w := report { placeGuard g s with trace.bg := some b0 } with hw
  have accepts : runCommand .compare (BitVec.ofNat 8 k.val) s = (onGoing (testCondition met .clipped b0 0 w)
      fun b2 s2 => if recCompareStart b2.record > recCompareEnd b2.record then finishCompare b2 s2
        else { s2 with trace.bg := some b2 }, .accepted) := by
    have : runCommand .compare (BitVec.ofNat 8 k.val) s = (startCompareCommand k s, .accepted) := by
      simp [runCommand, withSlot_ofNat, commandCompare, halted, bgFree, free, injected]
    rw [this]
    rfl
  have record : b0.record = r := rfl
  have stopping : b0.stopping.has .clipped = (headerStopping (activeHeader s)).clipped := rfl
  have wplan : w.plan = s.plan := by simp [hw]
  have wstate : w.seq.state ≠ .sweeping := by simp [hw, halted]
  have wview : w.trace.view = none := by simpa [hw] using ready.noView
  -- The operation that goes on, and the state it goes on from.
  set b1 : Background := if met then { b0 with
    raised := b0.raised.insert .clipped, masked := b0.masked.insert .clipped } else b0 with hb1
  set w1 : State := if met then raiseCondition .clipped k w else w with hw1
  have goes : stops = false → testCondition met .clipped b0 0 w = (w1, some b1) := fun hstops => by
    cases hmet : met with
    | false => simp [hw1, hb1, hmet]
    | true =>
      have hmask : b0.stopping.has .clipped = false := by simpa [stops, hmet, stopping] using hstops
      rw [testCondition_masks rfl hmask, hw1, hb1]
      simp only [hmet, if_true]
      rfl
  have begins : stops = false → begun b1 := fun hstops => by
    simp only [begun, hb1, hstops]
    cases hmet : met <;> exact ⟨rfl, rfl, rfl, rfl, rfl, rfl, rfl, rfl, rfl, rfl, rfl⟩
  have b1record : b1.record = r := by rw [hb1]; split <;> rfl
  have w1trace : w1.trace = { (if met then raised .clipped k s else s.trace) with bg := some b0 } := by
    rw [hw1]
    split <;> rfl
  refine ⟨fun hstops hrange hbelow hmirror => ⟨b1, begins hstops, ?_⟩, fun hstops hempty plan => ?_,
    fun hstops plan => ?_⟩
  · rw [goes hstops, onGoing_some, if_neg (by rw [b1record]; omega)] at accepts
    have needs : traceNeed b1 ≠ .nothing := by
      have : accAddress b1 < memoryEnd := by
        have hpt : b1.point = recCompareStart r := (begins hstops).2.2.2.2.1
        simpa [accAddress, b1record, hpt, memoryEnd] using hbelow
      have hacc : b1.acc = none := (begins hstops).2.2.2.2.2.2.2.1
      simp [traceNeed, hacc, this]
    refine (exec_accepted ready .compare _ spare tag accepts ?_).trans (congrArg Host.Outcome.next ?_)
    · refine settled_report (settled_outside ?_ ?_ ?_)
      · rw [hw1]; split <;> simpa using wstate
      · rw [w1trace]; split <;> exact ready.noView
      · intro b hb
        injection hb with hb
        exact hb ▸ needs
    · have mirror : { w1 with trace.bg := some b1 } = { placeGuard g s with
          trace := { (if met then raised .clipped k s else s.trace) with bg := some b1 }
          mirror := (report { placeGuard g s with trace.bg := some b0 }).mirror } := by
        rw [hw1]
        split <;> rfl
      rw [mirror]
      cases hmet : met with
      | false =>
        have hb : b1 = b0 := by simp [hb1, hmet]
        rw [hb]
        exact answered_through (u := { placeGuard g s with trace.bg := some b0 }) (m := s.mirror) rfl fun _ => .inr rfl
      | true =>
        have shown : Mirrored (placeGuard g s) := hmirror hmet
        exact answered_taken (u := { placeGuard g s with trace := { raised .clipped k s with bg := some b1 } })
          shown rfl (by simp [hb1, hmet])
  · rw [goes hstops, onGoing_some, if_pos (by rw [b1record]; omega), finishCompare_eq] at accepts
    have b1op : b1.op = .compareCommand := (begins hstops).1
    have b1slot : b1.slot = k := (begins hstops).2.1
    have w1plan : w1.plan = s.plan := by rw [hw1]; split <;> simpa using wplan
    have run := compare_ended (spare := spare) (tag := tag) b1op b1slot _ (planSettled_of plan w1plan)
      (by rw [hw1]; split <;> simpa using wstate) (by rw [w1trace]; split <;> exact ready.noView) ready accepts
    have b1cmp : b1.cmp = Comparison.start := (begins hstops).2.2.2.2.2.2.2.2.2.2
    have w1eq : w1 = { s with
        path.guards := s.path.guards ++ [g]
        trace := { (if met then raised .clipped k s else s.trace) with bg := some b0 }
        mirror := w.mirror } := by
      rw [hw1]
      split <;> rfl
    have none : (if met then raised .clipped k s else s.trace).bg = none := by split <;> exact free
    have sweep : w1.seq.sweepNumber = s.seq.sweepNumber := by rw [w1eq]
    rw [b1cmp, sweep] at run
    obtain ⟨tpath, tplan, tkept, ttrace, tposted⟩ := compare_ended_leaves k spare tag
      (unpairedVerdict (comparisonResult b1 Comparison.start s.seq.sweepNumber))
      { w1 with trace.glitchCount :=
          w1.trace.glitchCount.set k (comparisonResult b1 Comparison.start s.seq.sweepNumber).glitches }
    refine ⟨_, b1, run, begins hstops, ⟨?_, ?_, ?_⟩, ?_, tposted s ?_ ?_ ?_⟩
    · rw [tpath, w1eq]
      simp [hg]
    · rw [tplan, w1eq]
    · rw [w1eq] at tkept ⊢
      exact tkept
    · rw [ttrace, w1eq]
      simp only [none]
      split <;> rfl
    all_goals rw [w1eq]
  · obtain ⟨hmet, hstop⟩ : met = true ∧ b0.stopping.has .clipped = true := by
      simpa [stops, stopping] using hstops
    set b2 := { b0 with raised := b0.raised.insert .clipped } with hb2
    have begun2 : begun b2 := by
      simp only [begun, hstops, hmet]
      exact ⟨rfl, rfl, rfl, rfl, rfl, rfl, rfl, rfl, rfl, rfl, rfl⟩
    set w2 := captureStop b2 0 .clipped (raiseCondition .clipped b2.slot w) with hw2
    have stopped : onGoing (testCondition met .clipped b0 0 w)
        (fun b3 s3 => if recCompareStart b3.record > recCompareEnd b3.record then finishCompare b3 s3
          else { s3 with trace.bg := some b3 }) = endCompare b2 (stoppedResult b2 0 s.seq.sweepNumber) w2 := by
      rw [hmet, testCondition_stops rfl hstop, onGoing_none]
      unfold stopOperation
      refine (if_neg (by simp [b0, newBackground])).trans ?_
      have sweep : w2.seq.sweepNumber = s.seq.sweepNumber := by simp [hw2, hw]
      rw [← sweep]
      rfl
    rw [stopped] at accepts
    have run := compare_ended (spare := spare) (tag := tag) (b := b2) rfl (k := k) rfl _
      (planSettled_of plan (by simp [hw2, hw])) (by simp [hw2, hw, halted])
      (by simpa [hw2, hw] using ready.noView) ready accepts
    obtain ⟨tpath, tplan, tkept, ttrace, tposted⟩ := compare_ended_leaves k spare tag
      (unpairedVerdict (stoppedResult b2 0 s.seq.sweepNumber))
      { w2 with trace.glitchCount := w2.trace.glitchCount.set k (stoppedResult b2 0 s.seq.sweepNumber).glitches }
    refine ⟨{ s with findings := w2.findings }, _, b2, run, begun2,
      ⟨?_, ?_, ?_⟩, rfl, stopped_of (w := w) ?_ ?_ ?_ ?_ ?_, ?_, tposted _ ?_ ?_ ?_⟩
    · rw [tpath]
      simp [hw2, hw, hg]
    · rw [tplan]
      simp [hw2, hw]
    · simp [hw2, hw]
    case refine_7 => rw [ttrace]
    case refine_9 =>
      rw [ttrace]
      simp [hw2, hw, stoppedResult, b2, b0, newBackground, Comparison.start]
    all_goals simp [hw2, hw]

end Sys2Proof.Machine
end

section
/-! PROOFS. The memory path: what changes memory, what moves in reset, the arbiter, and accesses by their class (R167,
R168, R170, R173 to R175, R178). -/

namespace Sys2Proof.Machine

/-! ### What changes memory -/

/-- A VIEW FETCH grant leaves memory alone. -/
theorem granted_viewFetch_mem (s : State) : (granted .viewFetch viewFetchGranted s).mem = s.mem := by
  obtain hg | ⟨n, -, hg⟩ := granted_cases .viewFetch viewFetchGranted s
  · rw [hg]
  · simp [hg]

/-- Settles O32: every other row presents an access or lets an event happen that leaves memory alone. -/
theorem onlyGrantsChangeMemory : Obligations.OnlyGrantsChangeMemory := by
  intro c s t ht pass accum trace post a
  suffices h : t.mem = s.mem by rw [h]
  cases c <;> injection ht with ht <;> subst ht
  case passGrant => exact absurd rfl pass
  case accumGrant => exact absurd rfl accum
  case traceGrant => exact absurd rfl trace
  case postGrant => exact absurd rfl post
  case viewFetchGrant => exact happen_mem (granted_viewFetch_mem s)
  case quietHoursGateAsserted =>
    split
    · rfl
    · exact happen_mem (s := setGate true s) (by simp)
  case quietHoursGateDeasserted =>
    split
    · exact happen_mem (s := setGate false s) (by simp)
    · rfl
  case liveLightGuardAsserted =>
    split
    · rfl
    · exact happen_mem (s := setLiveLight true s) (by simp)
  case liveLightGuardDeasserted =>
    split
    · exact happen_mem (s := setLiveLight false s) (by simp)
    · rfl
  case triggerEdge e => exact happen_mem (s := setTrigger e s) (by simp)
  case hardReset => rfl
  case resetDeasserted =>
    split
    · exact happen_mem (s := { s with pins.resetAsserted := false }) rfl
    · rfl
  case settleTimerExpiry => exact happen_mem (by simp)
  case warmUpExpiry => exact happen_mem (by simp)
  case warmHoldExpiry => exact happen_mem (by simp)
  case dutyPeriodEnd => exact happen_mem (by simp)
  case shotSpacingExpiry => exact happen_mem (by simp)
  case shotDeadlineExpiry => exact happen_mem (by simp)
  case takeResult => exact happen_mem (by simp)
  all_goals simp

/-! ### While reset is asserted (R178) -/

/-- An access presented in reset waits (R178; log entry 34). -/
theorem present_inReset {s : State} (h : s.pins.resetAsserted = true) (a : Access) :
    present a s = { s with path.waiting := s.path.waiting ++ [a] } := by
  have hb : busFree s = false := by simp [busFree, h]
  unfold present
  cases s.path.waiting <;> simp [serveBus, hb]

/-- What `t` may differ in from `s` while reset is held: the levels of the lines and the accesses that wait. -/
def StaysHeld (s t : State) : Prop :=
  t = { s with pins := t.pins, path.waiting := t.path.waiting } ∧ t.pins.resetAsserted = true

/-- An event in reset moves the level of its line alone (R178; log entry 35). -/
theorem happen_staysHeld {s u : State} (hu : u = { s with pins := u.pins }) (h : u.pins.resetAsserted = true)
    (f : State → State) : StaysHeld s (happen f u) := by
  rw [happen_inReset h]
  refine ⟨hu.trans ?_, h⟩
  rw [show u.path.waiting = s.path.waiting by rw [hu]]

/-- An access presented in reset waits. -/
theorem present_staysHeld {s : State} (h : s.pins.resetAsserted = true) (a : Access) : StaysHeld s (present a s) := by
  rw [present_inReset h]
  exact ⟨rfl, h⟩

/-- Settles O33: an access waits, an event does nothing, and a line moves its level (log entries 34, 35). -/
theorem heldInReset : Obligations.HeldInReset := by
  intro c s t held ht reset deasserted
  change StaysHeld s t
  have stays : StaysHeld s s := ⟨rfl, held⟩
  have event (f : State → State) : StaysHeld s (happen f s) := happen_staysHeld rfl held f
  cases c <;> injection ht with ht <;> subst ht
  case hardReset => exact absurd rfl reset
  case resetDeasserted => exact absurd rfl deasserted
  case quietHoursGateAsserted => split <;> [exact stays; exact happen_staysHeld (by rfl) (by exact held) _]
  case quietHoursGateDeasserted => split <;> [exact happen_staysHeld (by rfl) (by exact held) _; exact stays]
  case liveLightGuardAsserted => split <;> [exact stays; exact happen_staysHeld (by rfl) (by exact held) _]
  case liveLightGuardDeasserted => split <;> [exact happen_staysHeld (by rfl) (by exact held) _; exact stays]
  case triggerEdge => exact happen_staysHeld (by rfl) (by exact held) _
  case passGrant | accumGrant | traceGrant | viewFetchGrant | postGrant => exact event _
  case settleTimerExpiry | warmUpExpiry | warmHoldExpiry | dutyPeriodEnd => exact event _
  case shotSpacingExpiry | shotDeadlineExpiry | takeResult => exact event _
  all_goals exact present_staysHeld held _

/-! ### The arbiter (R173, R174) -/

/-- Settles O31: the rows of the decision, the engines' order, and a grant that the decision does not give. -/
theorem arbiterDecides : Obligations.ArbiterDecides := by
  intro s
  have undecided (r : Requester) (f : State → State) (ready : EventReady s) (hd : ∀ count, decision s ≠ some (r, count)) :
      happen (granted r f) s = report s := happen_eq ready (granted_of_not hd f) rfl
  refine ⟨fun hp he => ?_, fun e hp he hc => ?_, fun e hp he hc => ?_, fun e hp he => ?_, fun hp he => ?_, ?_,
    fun r ready hd => ?_⟩
  · obtain ⟨a, ha⟩ := Option.ne_none_iff_exists'.1 hp
    simp [decision, ha, he]
  · obtain ⟨a, ha⟩ := Option.ne_none_iff_exists'.1 hp
    simp [decision, ha, he, hc]
  · obtain ⟨a, ha⟩ := Option.ne_none_iff_exists'.1 hp
    simp [decision, ha, he, Nat.not_lt.2 hc]
  · simp [decision, hp, he]
  · simp [decision, hp, he]
  · unfold firstEngine
    cases viewFetchStands s <;> cases postStands s <;> cases accumStands s <;> cases traceStands s <;> rfl
  · cases r <;> exact congrArg Host.Outcome.next (undecided _ _ ready hd)

/-! ### Accesses by their class (R167, R168, R170, R175) -/

/-- A write of memory's class on a ready bus (R170). -/
theorem present_memoryWrite {s : State} (h : BusReady s) {a : Access} (hw : a.write = true) (hc : classOf a.word = .memory) :
    present a s = report (if guarded s a.word then hitGuard s else passAccess a s) := by
  simp [present_ready h, takeAccess, takeWrite, takeMemoryWrite, hw, hc]

/-- A write of a plain word of the control page on a ready bus. -/
theorem present_controlWrite {s : State} (h : BusReady s) {a : Access} (hw : a.write = true)
    (hc : classOf a.word = .controlPlain) : present a s = report (passAccess a s) := by
  simp [present_ready h, takeAccess, takeWrite, hw, hc]

/-- A word that a guard covers, as the statements say it. -/
theorem guarded_iff (s : State) (a : Nat) :
    guarded s a = true ↔ a < 0xFFF000 ∧ ∃ g ∈ s.path.guards, g.base ≤ a ∧ a < g.base + 4 * g.words := by
  unfold guarded controlPage inRange
  rw [Bool.and_eq_true, List.any_eq_true]
  simp only [decide_eq_true_eq, Bool.and_eq_true]

/-- Settles O27: the class of a plain write is memory or a plain control word, and only the first is ever guarded. -/
theorem memoryAccessPasses : Obligations.MemoryAccessPasses := by
  intro addr be data s ready a covered
  have iff : guarded s a = true ↔ covered := guarded_iff s a
  set w : Access := ⟨addr, true, be, data⟩ with hw
  have word : w.word = a := rfl
  have classed : plainWriteAddress addr.toNat = true → classOf a = .memory ∨ classOf a = .controlPlain ∧ ¬ covered := by
    intro hp
    have hc := Laws.WellFormedOperands.upstreamMemoryWrite addr be data hp w rfl
    have hc' : classOf a = .memory ∨ classOf a = .controlPlain := by
      simpa [Laws.WellFormedOperands.classesOf, word] using hc
    refine hc'.imp_right fun h => ⟨h, fun hcov => ?_⟩
    have : classOf a = .memory := if_pos hcov.1
    rw [h] at this
    cases this
  refine ⟨fun hp hn => ?_, fun hp hcov => ?_, fun hlt => ?_⟩
  · refine congrArg Host.Outcome.next ?_
    obtain hc | ⟨hc, -⟩ := classed hp
    · exact (present_memoryWrite (a := w) ready rfl hc).trans (congrArg report (if_neg fun h => hn (iff.1 h)))
    · exact present_controlWrite (a := w) ready rfl hc
  · refine congrArg Host.Outcome.next ?_
    obtain hc | ⟨-, hn⟩ := classed hp
    · exact (present_memoryWrite (a := w) ready rfl hc).trans (congrArg report (if_pos (iff.2 hcov)))
    · exact absurd hcov hn
  · have hc : classOf (addr.toNat / 4 * 4) ∈ _ :=
      Laws.WellFormedOperands.upstreamMemoryRead addr be (by simpa [Instr.wf] using hlt) _ rfl
    have hr : takeRead ⟨addr, false, be, 0⟩ s = passAccess ⟨addr, false, be, 0⟩ s := by
      unfold takeRead
      rw [show Access.word ⟨addr, false, be, 0⟩ = addr.toNat / 4 * 4 from rfl]
      split <;> simp_all [Laws.WellFormedOperands.classesOf]
    exact congrArg Host.Outcome.next ((present_ready ready _).trans (congrArg report hr))

/-- Settles O28: each access is of the class of its row (R167). -/
theorem discardedAccesses : Obligations.DiscardedAccesses := by
  intro s ready
  refine ⟨fun offset be data hlo hhi => ?_, fun addr be data hstray => ?_, fun offset be => ?_⟩
  · have hc : classOf (pageWrite offset be data).word = .partWritten := by
      simpa [Laws.WellFormedOperands.classesOf] using Laws.WellFormedOperands.partWrittenAreaWrite offset be data
        (by simp [Instr.wf, partWrittenOffset, hlo, hhi]) _ rfl
    have hw : (pageWrite offset be data).write = true := rfl
    refine congrArg Host.Outcome.next ((present_ready ready _).trans ?_)
    simp [takeAccess, hw, takeWrite, hc, hitGuard]
  · have hc (write : Bool) (d : Word) : classOf (⟨addr, write, be, d⟩ : Access).word = .stray := by
      simpa [Access.word, Laws.WellFormedOperands.classesOf] using Laws.WellFormedOperands.strayAccess addr write be d hstray
        ⟨addr, write, be, if write then d else 0#32⟩ rfl
    refine ⟨congrArg Host.Outcome.next ((present_ready ready _).trans ?_),
      congrArg Host.Outcome.next ((present_ready ready _).trans ?_)⟩
    · simp [takeAccess, takeWrite, hc, takeStray]
    · simp [takeAccess, takeRead, hc, takeStray, answerRead]
  · have hc : classOf (⟨shotAddress offset, false, be, 0#32⟩ : Access).word = .shotWindow := by
      simpa using Laws.WellFormedOperands.inShotWindow offset false be 0#32
    refine congrArg Host.Outcome.next ((present_ready ready _).trans ?_)
    simp [takeAccess, takeRead, hc, answerRead]

end Sys2Proof.Machine
end

section
/-! PROOFS. The check value, the margins and classes of a point (R66, R95, R97, R99, R110, R111). -/

namespace Sys2Proof.Machine

/-! ### The check value (R66) -/

/-- One bit fed to the check register, by the register's top bit. -/
theorem crcBit_eq (reg : BitVec 16) (b : Bool) :
    crcBit reg b = if reg.getLsbD 15 = b then reg <<< 1 else (reg <<< 1) ^^^ 0x1021#16 := by
  simp [crcBit, BitVec.msb_eq_getLsbD_last]

/-- Bit `i` of byte `j` of a word. -/
theorem byteOf_getLsbD (w : Word) (j : Nat) {i : Nat} (hi : i < 8) : (byteOf w j).getLsbD i = w.getLsbD (8 * j + i) := by
  simp [byteOf, hi]

/-- A word fed is its bits fed, most significant first. -/
theorem crcWord_eq (reg : BitVec 16) (w : Word) :
    crcWord reg w = ((List.range 32).map fun i => w.getLsbD (31 - i)).foldl crcBit reg := by
  simp only [crcWord, crcByte, List.range, List.range.loop, List.map_cons, List.map_nil, List.foldl_cons, List.foldl_nil,
    byteOf_getLsbD, Nat.reduceLT, Nat.reduceMul, Nat.reduceAdd, Nat.reduceSub]

/-- Settles O59: a word is fed bit by bit, and the reference is evaluated. -/
theorem checkValueComputed : Obligations.CheckValueComputed := by
  unfold Obligations.CheckValueComputed
  intro feed
  have bits : feed = crcBit := funext fun reg => funext fun b => (crcBit_eq reg b).symm
  rw [bits]
  refine ⟨fun ws => ?_, by decide +kernel⟩
  rw [List.foldl_flatMap]
  exact congrArg (fun f => ws.foldl f crcPreset) (funext fun reg => funext fun w => crcWord_eq reg w)

/-! ### Zones and margins (R110) -/

/-- The first numbers of a range, as many as a function answers for. -/
theorem filterMap_range {α : Type} {g : Nat → Option α} {bound : Nat} (hs : ∀ i < bound, (g i).isSome)
    (hn : ∀ i, bound ≤ i → g i = none) (m : Nat) : ((List.range m).filterMap g).length = min m bound ∧
      ∀ n < m, n < bound → ((List.range m).filterMap g)[n]? = g n := by
  induction m with
  | zero => simp
  | succ m ih =>
    obtain ⟨len, get⟩ := ih
    rw [List.range_succ, List.filterMap_append, List.length_append, len]
    by_cases hm : m < bound
    · obtain ⟨a, ha⟩ := Option.isSome_iff_exists.1 (hs m hm)
      have one : [m].filterMap g = [a] := by simp [ha]
      rw [one]
      refine ⟨by simp; omega, fun n hn hb => ?_⟩
      by_cases hnm : n < m
      · rw [List.getElem?_append_left (by rw [len]; omega)]
        exact get n hnm hb
      · obtain rfl : n = m := by omega
        rw [List.getElem?_append_right (by rw [len]; omega), len, ha]
        simp [Nat.min_eq_left hm.le]
    · have nil : [m].filterMap g = [] := by simp [hn m (by omega)]
      rw [nil, List.append_nil]
      exact ⟨by simp; omega, fun n hn hb => get n (by omega) hb⟩

/-- The last entry of a list that starts at or below a point gives the point's margins. -/
theorem marginsAt_last {zs : List Zone} {i n : Nat} {z : Zone} (hz : zs[n]? = some z) (hs : z.start ≤ i)
    (later : ∀ (m : Nat) (w : Zone), n < m → zs[m]? = some w → i < w.start) : marginsAt zs i = (z.low, z.high) := by
  obtain ⟨hn, rfl⟩ := List.getElem?_eq_some_iff.1 hz
  have tail : (zs.drop (n + 1)).filter (fun w => w.start ≤ i) = [] := by
    refine List.filter_eq_nil_iff.2 fun w hw => ?_
    obtain ⟨m, hm⟩ := List.mem_iff_getElem?.1 hw
    rw [List.getElem?_drop] at hm
    simpa using later (n + 1 + m) w (by omega) hm
  have split : zs = zs.take n ++ zs[n] :: zs.drop (n + 1) := by simp
  have last : (zs.filter fun w => w.start ≤ i).getLast? = some zs[n] := by
    rw [show zs.filter (fun w => w.start ≤ i) = (zs.take n).filter (fun w => w.start ≤ i) ++ [zs[n]] by
      conv_lhs => rw [split, List.filter_append, List.filter_cons_of_pos (by simpa using hs), tail]]
    simp
  simp [marginsAt, last]

/-- Settles O60: the sequence entry by entry, the margins by the last entry that starts at or below the point, and the
class by the order of the tests. -/
theorem marginsOfPoint : Obligations.MarginsOfPoint := by
  refine ⟨fun zones r => ?_, fun zs i => ⟨fun n z hz hs later => marginsAt_last hz hs later, ?_, ?_⟩,
    fun b i acc base => ?_⟩
  · obtain ⟨len, get⟩ := filterMap_range (bound := 64 - recFirstZone r)
      (g := fun i => if h : recFirstZone r + i < 64 then some (zoneEntry zones ⟨recFirstZone r + i, h⟩) else none)
      (fun i hi => by simp [show recFirstZone r + i < 64 by omega])
      (fun i hi => by simp [show ¬ recFirstZone r + i < 64 by omega]) (recZoneCount r)
    refine ⟨len, fun n hn h => (get n hn (by omega)).trans ?_⟩
    simp [h]
  · rintro z rest rfl below
    have none : (z :: rest).filter (fun w => w.start ≤ i) = [] :=
      List.filter_eq_nil_iff.2 fun w hw => by simpa using below w hw
    simp [marginsAt, none]
  · rintro rfl
    rfl
  · intro light lev floor unlit d m
    have dark : belowFloor b acc = true ↔ unlit := by
      have hl : pointLight b acc = light := by simp [pointLight, lightSum, light]
      simp only [belowFloor, pointLevel, hl, Bool.or_eq_true, decide_eq_true_eq]
      rfl
    have hd : pointDeviation b acc base = d := by
      simp [pointDeviation, pointLevel, pointLight, lightSum, d, lev, light]
    refine ⟨fun h => if_pos h, fun h => ?_⟩
    have present : classify b i acc base = if belowFloor b acc then (if base.toInt < floor then .within else .floor)
        else if d < -(m.1 : Int) then .low else if d > (m.2 : Int) then .high else .within := by
      rw [← hd]
      exact if_neg h
    rw [present]
    refine ⟨fun hu hb => ?_, fun hu hb => ?_, fun hu => ?_⟩
    · rw [if_pos (dark.2 hu), if_pos hb]
    · rw [if_pos (dark.2 hu), if_neg (by omega)]
    · rw [if_neg (fun h => hu (dark.1 h))]
      refine ⟨fun hl => if_pos hl, fun hh hl => ?_, fun hl hh => ?_⟩
      · rw [if_neg (by omega), if_pos hh]
      · rw [if_neg (by omega), if_neg (by omega)]

end Sys2Proof.Machine
end

section
/-! PROOFS. Writes of the plan areas and of the taken index word (R1, R7 to R15, R26, R151, R152). -/

namespace Sys2Proof.Machine

/-! ### Words merged byte by byte -/

/-- Byte 2 of a word put together from bytes. -/
theorem byteOf_append_two (b0 b1 b2 b3 : BitVec 8) : byteOf (b3 ++ b2 ++ b1 ++ b0 : BitVec 32) 2 = b2 := by
  unfold byteOf
  refine BitVec.eq_of_getLsbD_eq fun i hi => ?_
  simp only [BitVec.getLsbD_extractLsb', BitVec.getLsbD_append, hi]
  simp [show ¬ (16 + i < 8) by omega, show ¬ (16 + i - 8 < 8) by omega, show 16 + i - 8 - 8 = i by omega, hi]

/-- A merged word, byte by byte (R1). -/
theorem byteOf_mergeWord (be : Enables) (new old : Word) {j : Nat} (hj : j < 4) :
    byteOf (mergeWord be new old) j = if be.getLsbD j then byteOf new j else byteOf old j := by
  unfold mergeWord wordOfBytes
  match j, hj with
  | 0, _ => exact byteOf_append_zero _ _ _ _
  | 1, _ => exact byteOf_append_one _ _ _ _
  | 2, _ => exact byteOf_append_two _ _ _ _
  | 3, _ => exact byteOf_append_three _ _ _ _

/-! ### A plan write taken (R1, R167) -/

/-- A report before an access passes on is taken up by the report after it. -/
theorem report_passAccess_report (a : Access) (u : State) : report (passAccess a (report u)) = report (passAccess a u) :=
  report_through (v := u) (u := passAccess a u) rfl fun _ => .inr rfl

/-- The offset in the page of a page write's word. -/
theorem pageWrite_offset {offset : Nat} (h : offset < 0x1000) (h4 : 4 ∣ offset) (be : Enables) (data : Word) :
    (pageWrite (BitVec.ofNat 12 offset) be data).word = 0xFFF000 + offset := by
  rw [pageWrite_word, BitVec.toNat_ofNat]
  omega

/-- A plan write on a ready bus is merged, what may apply applies, and WAITING is tested where the header did (R1, R10,
R26). -/
theorem exec_planWrite {s : State} (h : BusReady s) {offset : Nat} (ho : offset < 0x880) (h4 : 4 ∣ offset) (be : Enables)
    (data : Word) : exec (.planWrite (BitVec.ofNat 12 offset) be data) s =
      .next (report (passAccess (pageWrite (BitVec.ofNat 12 offset) be data)
        (testAfterHeader (headerAppliesNow (mergePlan offset be data s))
          (report (applyOutside (mergePlan offset be data s)))))) := by
  have word := pageWrite_offset (show offset < 0x1000 by omega) h4 be data
  have hc : classOf (0xFFF000 + offset) = .planArea := by
    unfold classOf
    split_ifs <;> first | omega | rfl
  have page : (0xFFF000 + offset) % 0x1000 = offset := by omega
  have hw : (pageWrite (BitVec.ofNat 12 offset) be data).write = true := rfl
  refine congrArg Host.Outcome.next ((present_ready h _).trans ?_)
  simp only [takeAccess, hw, if_true, takeWrite, word, hc, takePlanWrite, page]
  rfl

/-- A plan write after which the header has not applied (R10). -/
theorem exec_planWrite_quiet {s u : State} (h : BusReady s) {offset : Nat} (ho : offset < 0x880) (h4 : 4 ∣ offset)
    (be : Enables) (data : Word) (hu : applyOutside (mergePlan offset be data s) = u)
    (ha : headerAppliesNow (mergePlan offset be data s) = false) :
    exec (.planWrite (BitVec.ofNat 12 offset) be data) s =
      .next (report (passAccess (pageWrite (BitVec.ofNat 12 offset) be data) u)) := by
  rw [exec_planWrite h ho h4, hu, ha]
  exact congrArg Host.Outcome.next (report_passAccess_report _ _)

/-- A plan write outside SWEEPING after which no sweep may start from WAITING (R26). -/
theorem exec_planWrite_rests {s u : State} (h : BusReady s) {offset : Nat} (ho : offset < 0x880) (h4 : 4 ∣ offset)
    (be : Enables) (data : Word) (hu : applyOutside (mergePlan offset be data s) = u) (hs : u.seq.state ≠ .sweeping)
    (hv : u.trace.view = none) (ht : TraceSettled u)
    (hw : u.seq.state = .waiting → activeMode u = .triggered ∨ u.pins.gate = false) :
    exec (.planWrite (BitVec.ofNat 12 offset) be data) s =
      .next (report (passAccess (pageWrite (BitVec.ofNat 12 offset) be data) u)) := by
  rw [exec_planWrite h ho h4, hu]
  have waits : waitingTest (report u) = report u := by
    refine if_neg ?_
    rintro ⟨st, mode, gate⟩
    obtain hm | hg := hw (by simpa using st)
    · exact mode (by simpa [activeMode, activeHeader] using hm)
    · simp [hg] at gate
  have tested (b : Bool) : testAfterHeader b (report u) = report u := by
    unfold testAfterHeader
    rw [waits, advance_settled (settled_report (settled_outside hs hv ht))]
    exact ite_self _
  rw [tested]
  exact congrArg Host.Outcome.next (report_passAccess_report _ _)

/-! ### Where a write is merged (R1, R12.3) -/

/-- A write at a header word. -/
theorem mergePlan_header (i : Fin 32) (be : Enables) (data : Word) (s : State) :
    mergePlan (4 * i.val) be data s = mergeHeader i be data s := by
  have := i.isLt
  have e : 4 * i.val / 4 = i.val := by omega
  simp only [mergePlan, e, dif_pos i.isLt]

/-- A write at a word of the zone table. -/
theorem mergePlan_zones (i : Fin 128) (be : Enables) (data : Word) (s : State) :
    mergePlan (0x080 + 4 * i.val) be data s = mergeZones i be data s := by
  have := i.isLt
  have e : (0x080 + 4 * i.val) / 4 = 32 + i.val := by omega
  have e2 : 32 + i.val - 32 = i.val := by omega
  simp only [mergePlan, e, e2, dif_pos i.isLt, dif_neg (show ¬ 32 + i.val < 32 by omega)]

/-- A write at a word of a slot record. -/
theorem mergePlan_record (k : SlotIx) (i : Fin 16) (be : Enables) (data : Word) (s : State) :
    mergePlan (0x280 + 64 * k.val + 4 * i.val) be data s = mergeRecord k i be data s := by
  have := k.isLt
  have := i.isLt
  have e : (0x280 + 64 * k.val + 4 * i.val) / 4 = 160 + 16 * k.val + i.val := by omega
  have ek : (160 + 16 * k.val + i.val - 160) / 16 = k.val := by omega
  have ei : (160 + 16 * k.val + i.val - 160) % 16 = i.val := by omega
  simp only [mergePlan, e, ek, ei, dif_neg (show ¬ 160 + 16 * k.val + i.val < 32 by omega),
    dif_neg (show ¬ 160 + 16 * k.val + i.val - 32 < 128 by omega), dif_pos k.isLt]

/-- An immediate header word passes to the active copy at once (R7). -/
theorem mergeHeader_immediate {i : Fin 32} (h : 16 ≤ i.val ∧ i.val ≤ 18) (be : Enables) (data : Word) (s : State) :
    mergeHeader i be data s = { s with
      plan.pendingCopy.header := s.plan.pendingCopy.header.set i (mergeWord be data s.plan.pendingCopy.header[i])
      plan.activeCopy.header := s.plan.activeCopy.header.set i (mergeWord be data s.plan.activeCopy.header[i]) } := by
  have hi : immediateWord i.val = true := by simp [immediateWord, h]
  simp [mergeHeader, hi]

/-- Any other header word waits, and sets the mark where a byte is enabled (R7, R8). -/
theorem mergeHeader_deferred {i : Fin 32} (h : i.val < 16 ∨ 18 < i.val) (be : Enables) (data : Word) (s : State) :
    mergeHeader i be data s = { s with
      plan.pendingCopy.header := s.plan.pendingCopy.header.set i (mergeWord be data s.plan.pendingCopy.header[i])
      plan.headerDirty := s.plan.headerDirty || be != 0 } := by
  have hi : immediateWord i.val = false := by
    simp only [immediateWord, Bool.and_eq_false_iff, decide_eq_false_iff_not]
    omega
  by_cases hb : be = 0#4 <;> simp [mergeHeader, hi, hb]

/-! ### What applies outside SWEEPING (R10 to R15) -/

/-- Nothing applies in SWEEPING or while a commanded operation is in flight, and the header does not (R10). -/
theorem deferred_applies {u : State} (h : u.seq.state = .sweeping ∨ deferring u = true) :
    applyOutside u = u ∧ headerAppliesNow u = false := by
  refine ⟨if_pos h, ?_⟩
  obtain h | h := h <;> simp [headerAppliesNow, h]

/-- Outside SWEEPING, with no commanded operation in flight and hold clear, every dirty region applies (R10, R11). -/
theorem applyOutside_applies {u : State} (hs : u.seq.state ≠ .sweeping) (hd : deferring u = false)
    (hh : holdFlag u = false) :
    applyOutside u = applyRecords (List.finRange 24) (applyZonesIfDue (applyHeaderIfDue u)) := by
  have hn : ¬ (u.seq.state = .sweeping ∨ deferring u = true) := by simp [hs, hd]
  unfold applyOutside applyDirty
  rw [if_neg hn, if_neg (by simp [hh])]

/-- The header does not apply where it is not due. -/
theorem headerAppliesNow_undue {u : State} (h : headerDue u = false) : headerAppliesNow u = false := by
  simp [headerAppliesNow, h]

/-- Records with no mark do not apply. -/
theorem applyRecords_clean {l : List SlotIx} {s : State} (h : ∀ k ∈ l, s.plan.recordDirty[k] = false) :
    applyRecords l s = s := by
  induction l with
  | nil => rfl
  | cons k rest ih =>
    have one : applyRecordIfDue k s = s := if_neg (by rw [h k (by simp)]; decide)
    rw [applyRecords, one, ih fun j hj => h j (by simp [hj])]

/-- Records applied one list after the other. -/
theorem applyRecords_append (l₁ l₂ : List SlotIx) (s : State) :
    applyRecords (l₁ ++ l₂) s = applyRecords l₂ (applyRecords l₁ s) := by
  induction l₁ generalizing s with
  | nil => rfl
  | cons k rest ih => exact ih _

/-- The slots before and after slot `k`. -/
theorem slots_split (k : SlotIx) :
    ∃ l₁ l₂, List.finRange 24 = l₁ ++ k :: l₂ ∧ k ∉ l₁ ∧ k ∉ l₂ := by
  obtain ⟨l₁, l₂, h⟩ := List.append_of_mem (List.mem_finRange k)
  have nodup := h ▸ List.nodup_finRange 24
  rw [List.nodup_append] at nodup
  obtain ⟨-, tail, apart⟩ := nodup
  exact ⟨l₁, l₂, h, fun hk => apart k hk k (by simp) rfl, (List.nodup_cons.1 tail).1⟩

/-- What the plan's application of records reads and changes for one slot. -/
def slotPlan (k : SlotIx) (s : State) : Bool × Record16 × Record16 × Bool × VerdictEntry :=
  (s.plan.recordDirty[k], s.plan.pendingCopy.records[k], activeRecord s k, s.accum.ready[k], s.verdict.table[k])

/-- Another slot's record applied changes nothing of this slot. -/
theorem applyRecordIfDue_other {j k : SlotIx} (h : j ≠ k) (s : State) :
    slotPlan k (applyRecordIfDue j s) = slotPlan k s := by
  have hv : j.val ≠ k.val := fun e => h (Fin.ext e)
  unfold applyRecordIfDue applyRecord
  dsimp only
  split_ifs <;> simp [slotPlan, activeRecord, setReady, setBased, modifySlot, hv]

/-- Records of other slots applied change nothing of this slot. -/
theorem applyRecords_other {k : SlotIx} {l : List SlotIx} (h : k ∉ l) (s : State) :
    slotPlan k (applyRecords l s) = slotPlan k s := by
  induction l generalizing s with
  | nil => rfl
  | cons j rest ih =>
    simp only [List.mem_cons, not_or] at h
    rw [applyRecords, ih h.2, applyRecordIfDue_other (Ne.symm h.1)]

/-- A slot's record applied where it is dirty, with its shape comparison (R15). -/
theorem applyRecordIfDue_self (k : SlotIx) (s : State) :
    let new := if s.plan.recordDirty[k] then s.plan.pendingCopy.records[k] else activeRecord s k
    slotPlan k (applyRecordIfDue k s) = (false, s.plan.pendingCopy.records[k], new,
      if shapeOf new = shapeOf (activeRecord s k) then s.accum.ready[k] else false,
      if shapeOf new = shapeOf (activeRecord s k) then s.verdict.table[k]
        else { s.verdict.table[k] with based := false }) := by
  dsimp only
  unfold applyRecordIfDue applyRecord
  dsimp only
  split_ifs <;> simp_all [slotPlan, activeRecord, setReady, setBased, modifySlot]

/-- Every record applied where it is dirty, slot by slot (R12, R15). -/
theorem applyRecords_slot (k : SlotIx) (s : State) :
    slotPlan k (applyRecords (List.finRange 24) s) = slotPlan k (applyRecordIfDue k s) := by
  obtain ⟨l₁, l₂, split, h₁, h₂⟩ := slots_split k
  rw [split, applyRecords_append, applyRecords, applyRecords_other h₂]
  have same := applyRecords_other h₁ s
  have left := applyRecordIfDue_self k (applyRecords l₁ s)
  have right := applyRecordIfDue_self k s
  simp only [slotPlan, Prod.mk.injEq] at same
  obtain ⟨hd, hp, ha, hr, ht⟩ := same
  dsimp only at left right
  rw [left, right, hd, hp, ha, hr, ht]

/-- With one record dirty, that record applies. -/
theorem applyRecords_one {k : SlotIx} {s : State} (h : ∀ j : SlotIx, j ≠ k → s.plan.recordDirty[j] = false) :
    applyRecords (List.finRange 24) s = applyRecordIfDue k s := by
  obtain ⟨l₁, l₂, split, h₁, h₂⟩ := slots_split k
  have before : applyRecords l₁ s = s := applyRecords_clean fun j hj => h j fun e => h₁ (e ▸ hj)
  rw [split, applyRecords_append, before, applyRecords]
  refine applyRecords_clean fun j hj => ?_
  have hjk : j ≠ k := fun e => h₂ (e ▸ hj)
  have same := applyRecordIfDue_other (Ne.symm hjk) s
  simp only [slotPlan, Prod.mk.injEq] at same
  rw [same.1, h j hjk]

/-! ### A slot record (R10, R15) -/

/-- Settles O24: the record written is the one dirty region, and it applies with its shape comparison. -/
theorem recordWriteApplies : Obligations.RecordWriteApplies := by
  intro k i be data r s ready st free hold plan hr
  obtain ⟨hdr, zones, records⟩ : headerDue s = false ∧ s.plan.zonesDirty = false ∧ ∀ j : SlotIx, s.plan.recordDirty[j] = false := by
    simpa [PlanSettled, hold] using plan
  set m := mergeRecord k i be data s with hm
  have merged : mergePlan (0x280 + 64 * k.val + 4 * i.val) be data s = m := mergePlan_record k i be data s
  have due : headerDue m = false := hdr
  have applied : applyOutside m = applyRecordIfDue k m := by
    rw [applyOutside_applies (u := m) st free hold, applyHeaderIfDue, due]
    have z : applyZonesIfDue m = m := if_neg (by simpa [hm, mergeRecord] using zones)
    rw [if_neg (by decide), z, applyRecords_one]
    intro j hj
    simpa [hm, mergeRecord, Vector.getElem_set, show k.val ≠ j.val from fun e => hj (Fin.ext e.symm)] using records j
  have run := exec_planWrite_quiet ready (offset := 0x280 + 64 * k.val + 4 * i.val) (by omega) (by omega) be data
    (by rw [merged, applied]) (by rw [merged]; exact headerAppliesNow_undue due)
  have dirty : m.plan.recordDirty[k] = true := by simp [hm, mergeRecord]
  have new : m.plan.pendingCopy.records[k] = r := by simp [hm, mergeRecord, modifySlot, hr]
  have old : activeRecord m k = activeRecord s k := rfl
  have clean : (m.plan.recordDirty.set k false) = s.plan.recordDirty := by
    refine Vector.ext fun j hj => ?_
    have := records ⟨j, hj⟩
    by_cases e : k.val = j <;> simp_all [mergeRecord]
  rw [applyRecordIfDue, if_pos dirty, applyRecord] at run
  dsimp only at run
  rw [new, old, clean] at run
  refine ⟨_, run, ?_, fun same => ?_, fun differs => ?_, ?_⟩
  · split_ifs <;> simp [passAccess, setReady, setBased, hm, mergeRecord, modifySlot, hr]
  · rw [if_pos same]
    simp [passAccess, hm, mergeRecord]
  · rw [if_neg differs]
    simp [passAccess, setReady, setBased, hm, mergeRecord, modifySlot]
  · split_ifs <;> simp [passAccess, setReady, setBased, hm, mergeRecord]

/-! ### The taken index (R13, R151) -/

/-- A taken index write on a ready bus goes to the Findings Unit. -/
theorem exec_takenIndexWrite {s : State} (h : BusReady s) (be : Enables) (data : Word) :
    exec (.takenIndexWrite be data) s = .next (report (passAccess (pageWrite 0x884 be data)
      (takeTakenIndex (pageWrite 0x884 be data) s))) := by
  have hc : classOf (pageWrite 0x884#12 be data).word = .takenIndexWord := by
    rw [pageWrite_word]
    decide
  refine congrArg Host.Outcome.next ((present_ready h _).trans (congrArg report ?_))
  refine (if_pos rfl).trans ?_
  unfold takeWrite
  rw [hc]
  rfl

/-- The ring pair presented with the ring empty (R13, R14, R152). -/
theorem presentRing_empty {u : State} (differs : headerRingWritten u.plan.pendingCopy.header ≠ headerRingWritten (activeHeader u))
    (empty : ringEmpty u = true) : presentRing u =
      if headerRingBase u.plan.pendingCopy.header + 16 * headerRingCapacity u.plan.pendingCopy.header ≤ 0xFFF000 then
        { u with
          plan.activeCopy.header :=
            ((activeHeader u).set 6 u.plan.pendingCopy.header[6]).set 7 u.plan.pendingCopy.header[7]
          plan.ringPending := false
          plan.ringFault := false
          findings.fill := 0 }
      else { u with plan.ringPending := true, plan.ringFault := true } := by
  have presented : ringPresented u = true := by simpa [ringPresented] using differs
  unfold presentRing ringFits controlPage
  rw [if_pos presented, if_pos empty]
  simp only [decide_eq_true_eq]

/-- Settles O26: the test of R151, and R13's presentation where the ring is left empty. -/
theorem takenIndexJudged : Obligations.TakenIndexJudged := by
  intro be data s ready t accepted presents h taken leaves
  have accepts : takenAccepted s be t = true ↔ accepted := by
    unfold takenAccepted
    simp only [Bool.and_eq_true, decide_eq_true_eq, and_assoc]
    rfl
  have written : accepted → writeTaken be t s = taken := fun ha => by
    have : takenAccepted s be t = true := accepts.2 ha
    unfold writeTaken
    rw [if_pos this]
    rfl
  have run : ∀ u, takeTakenIndex (pageWrite 0x884 be data) s = u → leaves u := fun u hu => by
    simp only [leaves, exec_takenIndexWrite ready, hu]
  have emptied : ringEmpty taken = true ↔ (s.findings.post - t).toNat = 0 ∧ findingsWaiting s = 0 := by
    simp [ringEmpty, occupancy, findingsWaiting, taken, markDirty]
  have reported : accepted → takeTakenIndex (pageWrite 0x884 be data) s =
      if ringEmpty taken then ringReportedEmpty taken else taken := fun ha => by
    have : takenAccepted s be t = true := accepts.2 ha
    change (if (takenAccepted s be t && ringEmpty (writeTaken be t s)) = true then
      ringReportedEmpty (writeTaken be t s) else writeTaken be t s) = _
    rw [this, written ha, Bool.true_and]
  refine ⟨fun ha hn => run _ ?_, fun ha hp differs => ?_, fun ha => run _ ?_⟩
  · rw [reported ha]
    by_cases he : ringEmpty taken = true
    · rw [if_pos he]
      refine if_neg fun hc => hn ?_
      simp only [Bool.and_eq_true, Bool.not_eq_true', bne_iff_ne] at hc
      obtain ⟨⟨⟨pending, st⟩, hold⟩, free⟩ := hc
      exact ⟨pending, st, hold, free, emptied.1 he⟩
    · rw [if_neg he]
  · obtain ⟨pending, st, hold, free, hempty⟩ := hp
    have he : ringEmpty taken = true := emptied.2 hempty
    have presented : takeTakenIndex (pageWrite 0x884 be data) s = presentRing taken := by
      rw [reported ha, if_pos he]
      refine if_pos ?_
      simp only [Bool.and_eq_true, Bool.not_eq_true', bne_iff_ne]
      exact ⟨⟨⟨pending, st⟩, hold⟩, free⟩
    rw [presentRing_empty (u := taken) differs he] at presented
    refine ⟨fun fits => run _ (presented.trans (if_pos fits)), fun beyond => run _ (presented.trans (if_neg ?_))⟩
    exact Nat.not_le.2 beyond
  · have hf : takenAccepted s be t = false := by simpa using fun h => ha (accepts.1 h)
    change (if (takenAccepted s be t && ringEmpty (writeTaken be t s)) = true then
      ringReportedEmpty (writeTaken be t s) else writeTaken be t s) = _
    rw [hf, Bool.false_and, if_neg (by decide)]
    simp [writeTaken, hf]

/-! ### Plan writes (R7 to R15) -/

/-- A header written whole is the one with the ring pair put aside, with that pair put back. -/
theorem ring_restored (h a : Vector Word 32) : (((h.set 6 a[6]).set 7 a[7]).set 6 h[6]).set 7 h[7] = h := by
  refine Vector.ext fun i hi => ?_
  by_cases h6 : i = 6 <;> by_cases h7 : i = 7 <;> simp_all [Ne.symm]

/-- The ring pair put aside is the active one (R13). -/
theorem headerRingWritten_applied (h a : Vector Word 32) :
    headerRingWritten (appliedHeader h a) = headerRingWritten a := by
  simp [headerRingWritten, appliedHeader]

/-- The mode of a header does not depend on the ring pair. -/
theorem headerMode_ring (h : Vector Word 32) (x y : Word) : headerMode ((h.set 6 x).set 7 y) = headerMode h := by
  simp [headerMode]

/-- The header's application, with the ring pair presented: the five ways it can leave the header (R8, R13, R14). -/
theorem applyHeader_eq (u : State) :
    let h := u.plan.pendingCopy.header
    let held := appliedHeader h u.plan.activeCopy.header
    let fits := headerRingBase h + 16 * headerRingCapacity h ≤ 0xFFF000
    let leaves (active : Vector Word 32) (pending fault : Bool) (fill : Nat) : State := { u with
      plan := { u.plan with
        activeCopy.header := active
        headerDirty := false
        ringPending := pending
        ringFault := fault }
      findings.fill := fill }
    applyHeader u =
      if headerRingWritten h = headerRingWritten (activeHeader u) then leaves held false false u.findings.fill
      else if ringEmpty u = true then
        if fits then leaves h false false 0 else leaves held true true u.findings.fill
      else leaves held true (!decide fits) u.findings.fill := by
  intro h held fits leaves
  have same : headerRingWritten held = headerRingWritten (activeHeader u) := headerRingWritten_applied _ _
  have presented : ringPresented { u with plan.activeCopy.header := held, plan.headerDirty := false } = true ↔
      headerRingWritten h ≠ headerRingWritten (activeHeader u) := by
    rw [← same]
    exact bne_iff_ne
  have fitting : ringFits h = true ↔ fits := by
    unfold ringFits controlPage
    exact decide_eq_true_iff
  unfold applyHeader presentRing
  by_cases hr : headerRingWritten h = headerRingWritten (activeHeader u)
  · rw [if_neg (fun hp => presented.1 hp hr), if_pos hr]
  · rw [if_pos (presented.2 hr), if_neg hr]
    refine if_congr Iff.rfl ?_ ?_
    · exact if_congr fitting (congrArg (fun a => leaves a false false 0) (ring_restored h _)) rfl
    · have : ringFits h = decide fits := by rw [Bool.eq_iff_iff, fitting, decide_eq_true_iff]
      exact congrArg (fun f => leaves held true (!f) u.findings.fill) this

/-- What the header's application leaves of the plan: every word but the ring pair passes, and no other region moves
(R8, R13). -/
theorem applyHeaderIfDue_plan (u : State) : (applyHeaderIfDue u).plan.headerDirty = false ∧
    (applyHeaderIfDue u).plan.activeCopy.zones = u.plan.activeCopy.zones ∧
    (applyHeaderIfDue u).plan.activeCopy.records = u.plan.activeCopy.records ∧
    (applyHeaderIfDue u).plan.zonesDirty = u.plan.zonesDirty ∧
    (applyHeaderIfDue u).plan.recordDirty = u.plan.recordDirty ∧
    ∀ i : Fin 32, i ≠ 6 → i ≠ 7 → (activeHeader (applyHeaderIfDue u))[i] =
      if headerDue u then u.plan.pendingCopy.header[i] else (activeHeader u)[i] := by
  unfold applyHeaderIfDue
  by_cases due : headerDue u = true
  · rw [if_pos due, applyHeader_eq]
    split_ifs
    all_goals
      refine ⟨rfl, rfl, rfl, rfl, rfl, fun i h6 h7 => ?_⟩
      have v6 : ¬ 6 = i.val := fun e => h6 (Fin.ext e.symm)
      have v7 : ¬ 7 = i.val := fun e => h7 (Fin.ext e.symm)
      simp [activeHeader, appliedHeader, v6, v7]
  · have clean : u.plan.headerDirty = false := by
      simp only [headerDue, Bool.not_eq_true, Bool.or_eq_false_iff] at due
      exact due.1
    rw [if_neg due]
    exact ⟨clean, rfl, rfl, rfl, rfl, fun i _ _ => (if_neg due).symm⟩

/-- The zone table's application (R8). -/
theorem applyZonesIfDue_eq (u : State) : applyZonesIfDue u = { u with
    plan.activeCopy.zones := if u.plan.zonesDirty then u.plan.pendingCopy.zones else u.plan.activeCopy.zones
    plan.zonesDirty := false } := by
  unfold applyZonesIfDue
  by_cases h : u.plan.zonesDirty = true
  · simp [h]
  · have hf : u.plan.zonesDirty = false := by simpa using h
    rw [if_neg h, if_neg h, ← hf]

/-- The records' application leaves the header and the zone table alone. -/
theorem applyRecords_plan (l : List SlotIx) (u : State) : activeHeader (applyRecords l u) = activeHeader u ∧
    (applyRecords l u).plan.activeCopy.zones = u.plan.activeCopy.zones ∧
    (applyRecords l u).plan.headerDirty = u.plan.headerDirty ∧
    (applyRecords l u).plan.zonesDirty = u.plan.zonesDirty := by
  induction l generalizing u with
  | nil => exact ⟨rfl, rfl, rfl, rfl⟩
  | cons k rest ih =>
    have one : activeHeader (applyRecordIfDue k u) = activeHeader u ∧
        (applyRecordIfDue k u).plan.activeCopy.zones = u.plan.activeCopy.zones ∧
        (applyRecordIfDue k u).plan.headerDirty = u.plan.headerDirty ∧
        (applyRecordIfDue k u).plan.zonesDirty = u.plan.zonesDirty := by
      unfold applyRecordIfDue applyRecord
      dsimp only
      split_ifs <;> exact ⟨rfl, rfl, rfl, rfl⟩
    obtain ⟨h, z, hd, zd⟩ := ih (applyRecordIfDue k u)
    exact ⟨h.trans one.1, z.trans one.2.1, hd.trans one.2.2.1, zd.trans one.2.2.2⟩

/-- The plan's mode and hold stand in words 0 and 16 of the header. -/
theorem headerMode_of {a b : Vector Word 32} (h : a[(0 : Fin 32)] = b[(0 : Fin 32)]) : headerMode a = headerMode b := by
  simp only [Fin.getElem_fin, Fin.val_zero] at h
  simp [headerMode, h]

/-- A merged word takes an enabled low bit from the write. -/
theorem mergeWord_bit (be : Enables) (new old : Word) (h : be.getLsbD 0 = true) :
    (mergeWord be new old).getLsbD 0 = new.getLsbD 0 := by
  have low (w : Word) : w.getLsbD 0 = (byteOf w 0).getLsbD 0 := by simp [byteOf]
  rw [low, byteOf_mergeWord be new old (by decide), if_pos h, ← low]

/-- Every dirty region applied: what is left of the plan, word by word and slot by slot (R8, R10 to R12, R15). -/
theorem everything_applied (m : State) :
    let u := applyRecords (List.finRange 24) (applyZonesIfDue (applyHeaderIfDue m))
    u.plan.headerDirty = false ∧ u.plan.zonesDirty = false ∧
    (∀ i : Fin 32, i ≠ 6 → i ≠ 7 → (activeHeader u)[i] =
      if headerDue m then m.plan.pendingCopy.header[i] else (activeHeader m)[i]) ∧
    u.plan.activeCopy.zones = (if m.plan.zonesDirty then m.plan.pendingCopy.zones else m.plan.activeCopy.zones) ∧
    ∀ k : SlotIx, slotPlan k u = slotPlan k (applyRecordIfDue k m) := by
  intro u
  obtain ⟨headerDirty, hzones, hrecords, hzd, hrd, words⟩ := applyHeaderIfDue_plan m
  obtain ⟨rheader, rzones, rhd, rzd⟩ := applyRecords_plan (List.finRange 24) (applyZonesIfDue (applyHeaderIfDue m))
  refine ⟨?_, ?_, fun i h6 h7 => ?_, ?_, fun k => ?_⟩
  · rw [rhd, applyZonesIfDue_eq]
    exact headerDirty
  · rw [rzd, applyZonesIfDue_eq]
  · rw [rheader, applyZonesIfDue_eq]
    exact words i h6 h7
  · rw [rzones, applyZonesIfDue_eq]
    simp [hzd, hzones]
  · refine (applyRecords_slot k _).trans ?_
    have same : slotPlan k (applyZonesIfDue (applyHeaderIfDue m)) = slotPlan k m := by
      rw [applyZonesIfDue_eq]
      simp [slotPlan, activeRecord, hrecords, hrd]
    have left := applyRecordIfDue_self k (applyZonesIfDue (applyHeaderIfDue m))
    have right := applyRecordIfDue_self k m
    simp only [slotPlan, Prod.mk.injEq] at same
    obtain ⟨hd, hp, ha, hr, ht⟩ := same
    dsimp only at left right
    rw [left, right, hd, hp, ha, hr, ht]

/-- A slot's record after every dirty region has applied, and its flags by the shape comparison (R15). -/
theorem slot_applied (m : State) (k : SlotIx) :
    let u := applyRecords (List.finRange 24) (applyZonesIfDue (applyHeaderIfDue m))
    u.plan.recordDirty[k] = false ∧
    activeRecord u k = (if m.plan.recordDirty[k] then m.plan.pendingCopy.records[k] else activeRecord m k) ∧
    (shapeOf (activeRecord u k) = shapeOf (activeRecord m k) →
      u.accum.ready[k] = m.accum.ready[k] ∧ u.verdict.table[k] = m.verdict.table[k]) ∧
    (shapeOf (activeRecord u k) ≠ shapeOf (activeRecord m k) →
      u.accum.ready[k] = false ∧ u.verdict.table[k] = { m.verdict.table[k] with based := false }) := by
  intro u
  have slot : slotPlan k u = _ := ((everything_applied m).2.2.2.2 k).trans (applyRecordIfDue_self k m)
  clear_value u
  simp only [slotPlan, Prod.mk.injEq] at slot
  obtain ⟨hd, -, ha, hr, ht⟩ := slot
  refine ⟨hd, ha, fun same => ⟨hr.trans (if_pos ?_), ht.trans (if_pos ?_)⟩,
    fun differs => ⟨hr.trans (if_neg ?_), ht.trans (if_neg ?_)⟩⟩
  · exact ha ▸ same
  · exact ha ▸ same
  · exact ha ▸ differs
  · exact ha ▸ differs

/-- What a write that clears hold leaves, as every dirty region applies (R11). -/
theorem planWrite_clearsHold {be : Enables} {data : Word} {s : State} (ready : BusReady s)
    (st : s.seq.state ≠ .sweeping) (free : deferring s = false) (trace : TraceSettled s) (enabled : be.getLsbD 0 = true)
    (clears : data.getLsbD 0 = false)
    (waits : s.seq.state = .waiting → headerMode (if headerDue s then
      s.plan.pendingCopy.header.set 16 (mergeWord be data s.plan.pendingCopy.header[16])
      else s.plan.activeCopy.header.set 16 (mergeWord be data s.plan.activeCopy.header[16])) = .triggered ∨
      s.pins.gate = false) :
    let m := mergeHeader 16 be data s
    let u := applyRecords (List.finRange 24) (applyZonesIfDue (applyHeaderIfDue m))
    exec (.planWrite 0x040 be data) s = .next (report (passAccess (pageWrite 0x040 be data) u)) ∧
      holdFlag m = false := by
  intro m u
  have merged : mergePlan 0x040 be data s = m := mergePlan_header 16 be data s
  have imm := mergeHeader_immediate (i := 16) (by decide) be data s
  have hm : m = _ := imm
  have hold : holdFlag m = false := by
    have : (mergeWord be data s.plan.activeCopy.header[(16 : Fin 32)]).getLsbD 0 = false := by
      rw [mergeWord_bit _ _ _ enabled, clears]
    rw [hm]
    simpa [holdFlag, headerHold, flagBit, activeHeader] using this
  have applied : applyOutside (mergePlan 0x040 be data s) = u := by
    rw [merged]
    exact applyOutside_applies (by simpa [m] using st) (by simpa [m, deferring] using free) hold
  refine ⟨exec_planWrite_rests ready (by decide) (by decide) be data applied ?_ ?_ ?_ ?_, hold⟩
  · simpa [u, m] using st
  · simpa [u, m] using ready.noView
  · intro b hb
    exact trace b (by simpa [u, m] using hb)
  · intro hw
    have hw' : s.seq.state = .waiting := by simpa [u, m] using hw
    refine (waits hw').imp (fun hmode => ?_) (fun hg => by simpa [u, m] using hg)
    refine Eq.trans (headerMode_of ?_) hmode
    rw [(applyRecords_plan _ _).1, applyZonesIfDue_eq]
    have words := (applyHeaderIfDue_plan m).2.2.2.2.2 0 (by decide) (by decide)
    refine words.trans ?_
    have due : headerDue m = headerDue s := by rw [hm]; rfl
    rw [due, hm]
    split_ifs <;> rfl

/-- A zone word applies at once where nothing else waits (R10). -/
theorem planWrite_zoneApplies {be : Enables} {data : Word} {s : State} (ready : BusReady s) (i : Fin 128)
    (st : s.seq.state ≠ .sweeping) (free : deferring s = false) (hold : holdFlag s = false) (plan : PlanSettled s) :
    let zones := s.plan.pendingCopy.zones.set i (mergeWord be data s.plan.pendingCopy.zones[i])
    exec (.planWrite (BitVec.ofNat 12 (0x080 + 4 * i.val)) be data) s =
      .next (report (passAccess (pageWrite (BitVec.ofNat 12 (0x080 + 4 * i.val)) be data) { s with
        plan.pendingCopy.zones := zones
        plan.activeCopy.zones := zones })) := by
  intro zones
  obtain ⟨due, clean, records⟩ : headerDue s = false ∧ s.plan.zonesDirty = false ∧
      ∀ j : SlotIx, s.plan.recordDirty[j] = false := by simpa [PlanSettled, hold] using plan
  have merged := mergePlan_zones i be data s
  have undue : headerDue (mergeZones i be data s) = false := due
  refine exec_planWrite_quiet ready (by omega) (by omega) be data ?_ (by rw [merged]; exact headerAppliesNow_undue undue)
  have header : applyHeaderIfDue (mergeZones i be data s) = mergeZones i be data s := if_neg (by simp [undue])
  have applied : applyZonesIfDue (mergeZones i be data s) = { s with
      plan.pendingCopy.zones := zones
      plan.activeCopy.zones := zones } := by
    rw [applyZonesIfDue_eq]
    simp only [mergeZones, if_true, ← clean]
    rfl
  rw [merged, applyOutside_applies (u := mergeZones i be data s) st free hold, header, applied]
  exact applyRecords_clean fun k _ => records k

/-- A header word applies at once with the rest of the header, and the ring pair is presented (R10, R13, R14). -/
theorem planWrite_headerApplies {be : Enables} {data : Word} {s : State} (ready : BusReady s) (i : Fin 32)
    (hi : i.val < 16 ∨ 18 < i.val) (st : s.seq.state ≠ .sweeping) (free : deferring s = false)
    (hold : holdFlag s = false) (zones : s.plan.zonesDirty = false)
    (records : ∀ k : SlotIx, s.plan.recordDirty[k] = false) (trace : TraceSettled s) (hbe : be ≠ 0) :
    let h := s.plan.pendingCopy.header.set i (mergeWord be data s.plan.pendingCopy.header[i])
    (s.seq.state = .waiting → headerMode h = .triggered ∨ s.pins.gate = false) →
    let held := (h.set 6 (activeHeader s)[6]).set 7 (activeHeader s)[7]
    let empty := occupancy s = 0 ∧ findingsWaiting s = 0
    let fits := headerRingBase h + 16 * headerRingCapacity h ≤ 0xFFF000
    let leaves (active : Vector Word 32) (pending fault : Bool) (fill : Nat) : Prop :=
      exec (.planWrite (BitVec.ofNat 12 (4 * i.val)) be data) s =
        .next (report (passAccess (pageWrite (BitVec.ofNat 12 (4 * i.val)) be data) { s with
          plan := { s.plan with
            pendingCopy.header := h
            activeCopy.header := active
            headerDirty := false
            ringPending := pending
            ringFault := fault }
          findings.fill := fill }))
    (headerRingWritten h ≠ headerRingWritten (activeHeader s) →
      (empty → fits → leaves h false false 0) ∧ (empty → ¬ fits → leaves held true true s.findings.fill) ∧
      (¬ empty → leaves held true (!decide fits) s.findings.fill)) ∧
    (headerRingWritten h = headerRingWritten (activeHeader s) → leaves held false false s.findings.fill) := by
  intro h waits held empty fits leaves
  have merged := (mergePlan_header i be data s).trans (mergeHeader_deferred hi be data s)
  set m : State := { s with
    plan.pendingCopy.header := h
    plan.headerDirty := s.plan.headerDirty || be != 0 } with hm
  have due : headerDue m = true := by simp [headerDue, hm, show ¬ be = 0#4 from hbe]
  have applied : ∀ active pending fault fill, applyHeader m = { s with
      plan := { s.plan with
        pendingCopy.header := h
        activeCopy.header := active
        headerDirty := false
        ringPending := pending
        ringFault := fault }
      findings.fill := fill } → headerMode active = headerMode h → leaves active pending fault fill := by
    intro active pending fault fill happ hmode
    refine exec_planWrite_rests ready (by omega) (by omega) be data ?_ st ready.noView trace
      (fun hw => (waits hw).imp_left hmode.trans)
    rw [merged, applyOutside_applies (u := m) st free hold, applyHeaderIfDue, if_pos due, happ, applyZonesIfDue,
      if_neg (by simp [zones])]
    exact applyRecords_clean fun k _ => records k
  have heldMode : headerMode held = headerMode h := headerMode_ring h _ _
  have emptied : ringEmpty m = true ↔ empty := by
    unfold ringEmpty
    rw [Bool.and_eq_true, decide_eq_true_eq, decide_eq_true_eq]
    rfl
  have cases := applyHeader_eq m
  dsimp only at cases
  refine ⟨fun differs => ⟨fun he hf => applied _ _ _ _ ?_ rfl, fun he hf => applied _ _ _ _ ?_ heldMode,
    fun he => applied _ _ _ _ ?_ heldMode⟩, fun same => applied _ _ _ _ ?_ heldMode⟩
  · exact cases.trans ((if_neg differs).trans ((if_pos (emptied.2 he)).trans (if_pos hf)))
  · exact cases.trans ((if_neg differs).trans ((if_pos (emptied.2 he)).trans (if_neg hf)))
  · exact cases.trans ((if_neg differs).trans (if_neg (fun h => he (emptied.1 h))))
  · exact cases.trans (if_pos same)

/-- Settles O23: the merges, and by the state what applies with them. -/
theorem planWriteMerges : Obligations.PlanWriteMerges := by
  intro be data s ready
  have lt (i : Fin 32) : 4 * i.val < 0x880 := by omega
  refine ⟨fun later => ⟨fun new old j hj => byteOf_mergeWord be new old hj, fun i hi => ?_, fun i h1 h2 => ?_,
    fun i => ?_, fun k i => ?_⟩, fun i h1 h2 due zones records => ?_, fun i st free hold plan => ?_,
    fun st free trace enabled clears => ?_,
    fun i hi st free hold zones records trace hbe => ?_⟩
  · have merged := (mergePlan_header i be data s).trans (mergeHeader_deferred hi be data s)
    have quiet := deferred_applies (u := mergePlan (4 * i.val) be data s) (by rw [merged]; exact later)
    exact exec_planWrite_quiet ready (lt i) (by omega) be data (quiet.1.trans merged) quiet.2
  · have merged := (mergePlan_header i be data s).trans (mergeHeader_immediate ⟨h1, h2⟩ be data s)
    have quiet := deferred_applies (u := mergePlan (4 * i.val) be data s) (by rw [merged]; exact later)
    exact exec_planWrite_quiet ready (lt i) (by omega) be data (quiet.1.trans merged) quiet.2
  · have merged := mergePlan_zones i be data s
    have quiet := deferred_applies (u := mergePlan (0x080 + 4 * i.val) be data s) (by rw [merged]; exact later)
    exact exec_planWrite_quiet ready (by omega) (by omega) be data (quiet.1.trans merged) quiet.2
  · have merged := mergePlan_record k i be data s
    have quiet := deferred_applies (u := mergePlan (0x280 + 64 * k.val + 4 * i.val) be data s)
      (by rw [merged]; exact later)
    exact exec_planWrite_quiet ready (by omega) (by omega) be data (quiet.1.trans merged) quiet.2
  · have merged := (mergePlan_header i be data s).trans (mergeHeader_immediate ⟨h1, h2⟩ be data s)
    have undue : headerDue (mergePlan (4 * i.val) be data s) = false := by rw [merged]; exact due
    have settled : PlanSettled (mergePlan (4 * i.val) be data s) := .inr ⟨undue, by rw [merged]; exact ⟨zones, records⟩⟩
    exact exec_planWrite_quiet ready (lt i) (by omega) be data ((applyOutside_settled settled).trans merged)
      (headerAppliesNow_undue undue)
  · exact planWrite_zoneApplies ready i st free hold plan
  · intro pending active waits
    obtain ⟨run, hold⟩ := planWrite_clearsHold ready st free trace enabled clears waits
    have merged := mergeHeader_immediate (i := 16) (by decide) be data s
    obtain ⟨headerDirty, zonesDirty, words, zones, slots⟩ := everything_applied (mergeHeader 16 be data s)
    have frame := applyRecords_frame (List.finRange 24) (applyZonesIfDue (applyHeaderIfDue (mergeHeader 16 be data s)))
    set u := applyRecords (List.finRange 24) (applyZonesIfDue (applyHeaderIfDue (mergeHeader 16 be data s))) with hu
    have due : headerDue (mergeHeader 16 be data s) = headerDue s := by rw [merged]; rfl
    have header : ∀ i : Fin 32, i ≠ 6 → i ≠ 7 → (activeHeader u)[i] = if headerDue s then pending[i] else active[i] :=
      fun i h6 h7 => by
        rw [words i h6 h7, due, merged]
        rfl
    have low : (activeHeader u)[(16 : Fin 32)].getLsbD 0 = false := by
      have get (v : Vector Word 32) (w : Word) : (v.set 16 w)[(16 : Fin 32)] = w := by simp
      rw [header 16 (by decide) (by decide), ← clears]
      split_ifs
      · exact (congrArg (fun w : Word => w.getLsbD 0) (get _ _)).trans (mergeWord_bit _ _ _ enabled)
      · exact (congrArg (fun w : Word => w.getLsbD 0) (get _ _)).trans (mergeWord_bit _ _ _ enabled)
    refine ⟨_, run, ?_, ?_, ?_, ?_, fun i h6 h7 => ?_, ?_, fun k => ?_, ?_⟩
    all_goals simp only [holdFlag, activeHeader, activeRecord, report_frame, passAccess]
    · simpa [headerHold, flagBit, activeHeader] using low
    · exact frame.2.1.trans (by simp [merged, pending])
    · exact headerDirty
    · exact zonesDirty
    · exact header i h6 h7
    · refine zones.trans ?_
      rw [merged]
    · have slot := slot_applied (mergeHeader 16 be data s) k
      rw [merged] at slot hu
      rw [hu]
      exact slot
    · simp [hu]
  · exact planWrite_headerApplies ready i hi st free hold zones records trace hbe

end Sys2Proof.Machine
end

section
/-! PROOFS. The grants of the PASS and POST requesters, and the words they write (R150, R153, R156, R168, R171, R172). -/

namespace Sys2Proof.Machine

/-! ### A grant by itself -/

/-- A grant that the decision gives, with no access waiting, comes to its requester's work and the report (R173). -/
theorem happen_granted {r : Requester} {f : State → State} {s u : State} {count : Nat} (h : EventReady s)
    (hd : decision s = some (r, count)) (hu : f { s with path.passCount := count } = u)
    (hw : u.path.waiting = s.path.waiting) : happen (granted r f) s = report u :=
  happen_eq h ((granted_of_decision hd f).trans hu) hw

/-- An image that shows the contents is left as it is by a report (R156). -/
theorem report_shown {s : State} (h : Mirrored s) : report s = s := by
  rw [report_mk]
  have word : ∀ i : Fin 224, s.mirror.image[i] = statusWord s i.val := fun i => by
    rw [h]
    simp
  refine congrArg (fun m : MirrorState => { s with mirror := m }) ?_
  rw [← h]
  refine congrArg (MirrorState.mk s.mirror.image) (Vector.ext fun i hi => ?_)
  have := word ⟨i, hi⟩
  simp only [Fin.getElem_fin] at this
  simp [this]

/-! ### Snoops (R171, R172) -/

/-- A snoop, slot by slot. -/
theorem snoop_slot (a : Nat) (ownAcc ownBase : Option SlotIx) (s : State) (k : SlotIx) :
    (snoop a ownAcc ownBase s).accum.ready[k] = (s.accum.ready[k] && !(inAccBuffer s k a && ownAcc != some k)) ∧
    (snoop a ownAcc ownBase s).verdict.table[k] = { s.verdict.table[k] with
      based := s.verdict.table[k].based && !(inBaseBuffer s k a && ownBase != some k) } := by
  simp [snoop, mapSlots]

/-- The snoop of an upstream write, slot by slot (R171). -/
theorem snoop_upstream (a : Nat) (s : State) (k : SlotIx) :
    (snoop a none none s).accum.ready[k] = (s.accum.ready[k] && !inAccBuffer s k a) ∧
    (snoop a none none s).verdict.table[k] = { s.verdict.table[k] with
      based := s.verdict.table[k].based && !inBaseBuffer s k a } := by
  have other : ((none : Option SlotIx) != some k) = true := rfl
  obtain ⟨ready, table⟩ := snoop_slot a none none s k
  rw [other, Bool.and_true] at ready table
  exact ⟨ready, table⟩

/-- A snoop moves flags alone. -/
theorem snoop_blocks (a : Nat) (ownAcc ownBase : Option SlotIx) (s : State) :
    (snoop a ownAcc ownBase s).accum = { s.accum with ready := (snoop a ownAcc ownBase s).accum.ready } ∧
    (snoop a ownAcc ownBase s).verdict = { s.verdict with table := (snoop a ownAcc ownBase s).verdict.table } :=
  ⟨rfl, rfl⟩

/-- A snoop of a word that lies in no slot's buffers changes nothing. -/
theorem snoop_apart {a : Nat} {s : State} (h : ∀ k : SlotIx, inAccBuffer s k a = false ∧ inBaseBuffer s k a = false)
    (ownAcc ownBase : Option SlotIx) : snoop a ownAcc ownBase s = s := by
  have ready : mapSlots s.accum.ready (fun k r => r && !(inAccBuffer s k a && ownAcc != some k)) = s.accum.ready := by
    refine Vector.ext fun i hi => ?_
    have := (h ⟨i, hi⟩).1
    simp [mapSlots, this]
  have table : mapSlots s.verdict.table (fun k e =>
      { e with based := e.based && !(inBaseBuffer s k a && ownBase != some k) }) = s.verdict.table := by
    refine Vector.ext fun i hi => ?_
    have := (h ⟨i, hi⟩).2
    simp [mapSlots, this]
  unfold snoop
  rw [ready, table]

/-- With no ADOPT in flight no write ends one (R126). -/
theorem endAdoptIfCleared_none {a : Nat} {before after : State} (h : ∀ b, after.trace.bg = some b → b.op ≠ .adopt) :
    endAdoptIfCleared a before after = after := by
  unfold endAdoptIfCleared
  split
  · rename_i b hb
    exact if_neg fun hc => h b hb hc.1
  · rfl

/-- A write that clears no ready flag ends no ADOPT (R126). -/
theorem endAdoptIfCleared_kept {a : Nat} {before after : State} (h : after.accum.ready = before.accum.ready) :
    endAdoptIfCleared a before after = after := by
  unfold endAdoptIfCleared
  split
  · refine if_neg fun hc => ?_
    obtain ⟨-, set, clear, -⟩ := hc
    rw [h, set] at clear
    cases clear
  · rfl

/-- An engine's write into a word of no slot's buffer writes the word and does nothing else (R172). -/
theorem ownWrite_apart {a : Nat} {s : State} (h : ∀ k : SlotIx, inAccBuffer s k a = false ∧ inBaseBuffer s k a = false)
    (w : Word) (ownAcc ownBase : Option SlotIx) :
    ownWrite a w ownAcc ownBase s = { s with mem := writeWord s.mem a 0xF#4 w } := by
  have same : snoop a ownAcc ownBase { s with mem := writeWord s.mem a 0xF#4 w } =
      { s with mem := writeWord s.mem a 0xF#4 w } := snoop_apart (s := { s with mem := writeWord s.mem a 0xF#4 w }) h _ _
  unfold ownWrite
  dsimp only
  rw [same, ite_self]
  exact endAdoptIfCleared_kept rfl

/-- An engine's write with no ADOPT in flight: the word, and its snoop (R172). -/
theorem ownWrite_snoops {a : Nat} {s : State} (ha : a < 0x1000000) (h : ∀ b, s.trace.bg = some b → b.op ≠ .adopt) (w : Word)
    (ownAcc ownBase : Option SlotIx) :
    ownWrite a w ownAcc ownBase s = snoop a ownAcc ownBase { s with mem := writeWord s.mem a 0xF#4 w } := by
  unfold ownWrite
  dsimp only
  rw [if_pos (show a < memoryEnd from ha)]
  exact endAdoptIfCleared_none fun b hb => h b (by simpa using hb)

/-! ### PASS (R168, R171) -/

/-- A write with no byte enabled writes nothing. -/
theorem writeWord_none (m : List Host.Cell) (a : Nat) (w : Word) : writeWord m a 0#4 w = m := by
  simp [writeWord, writeEnabled]

/-- Settles O30: the standing access reaches memory, and a write snoops the buffers. -/
theorem passGrantReachesMemory : Obligations.PassGrantReachesMemory := by
  intro a count s ready wf view bg pass hlt decided
  set s1 : State := { s with path.pass := none, path.passCount := count } with hs1
  have idle : TraceIdle s1 := idle_of view fun b hb => by simp [hs1, bg] at hb
  refine ⟨fun hr => ?_, fun hw => ?_⟩
  · refine congrArg Host.Outcome.next (happen_granted ready decided ?_ rfl)
    simp only [passGranted, pass, hr]
    rfl
  · set s2 : State := { s1 with mem := writeWord s.mem a.word a.be a.data } with hs2
    have idle2 : TraceIdle (snoop a.word none none s2) := by
      simpa [TraceIdle, runningOperation, hs2] using idle
    set u : State := if a.be = 0#4 then s2 else snoop a.word none none s2 with hu
    have done : passGranted { s with path.passCount := count } = u := by
      have stays : endAdoptIfCleared a.word { s with path.passCount := count } (snoop a.word none none s2) =
          snoop a.word none none s2 := endAdoptIfCleared_none fun b hb => by simp [hs2, hs1, bg] at hb
      simp only [passGranted, pass, hw, if_true]
      rw [hu]
      refine if_congr Iff.rfl rfl ?_
      refine Eq.trans ?_ (runTrace_idle idle2)
      exact congrArg runTrace stays
    have run : exec .passGrant s = .next (report u) := by
      refine congrArg Host.Outcome.next (happen_granted ready decided done ?_)
      rw [hu]
      split_ifs <;> simp [hs2, hs1]
    have mem : u.mem = writeWord s.mem a.word a.be a.data := by
      rw [hu]
      split_ifs <;> simp [hs2]
    have slots : ∀ k : SlotIx, (report u).accum.ready[k] = (s.accum.ready[k] && !(a.be != 0 && inAccBuffer s k a.word)) ∧
        (report u).verdict.table[k] = { s.verdict.table[k] with
          based := s.verdict.table[k].based && !(a.be != 0 && inBaseBuffer s k a.word) } := fun k => by
      rw [hu]
      split_ifs with hbe
      · simp [hbe, hs2, hs1]
      · have some : (a.be != 0) = true := by simpa using hbe
        simp only [report_frame, some, Bool.true_and]
        exact snoop_upstream a.word s2 k
    refine ⟨_, run, fun x => ?_, fun k => ?_, fun k => ?_, ?_⟩
    · simp only [report_frame, mem]
      exact readByte_writeWord wf hlt _ _ _
    · exact (slots k).1
    · exact (slots k).2
    · rw [hu]
      split_ifs
      · simp [hs2, hs1]
      · obtain ⟨accum, verdict⟩ := snoop_blocks a.word none none s2
        refine ⟨by simp [hs2, hs1], ?_, ?_, by simp [hs2, hs1]⟩
        · simp only [report_frame]
          exact accum
        · simp only [report_frame]
          exact verdict

end Sys2Proof.Machine
end

section
/-! PROOFS. The words the part posts: status words and records (R105, R145, R150, R153, R156, R177). -/

namespace Sys2Proof.Machine

/-! ### A POST grant that writes a word of no slot's buffer -/

/-- A POST grant by itself, where its word leaves the Trace Engine idle (R156). -/
theorem exec_postGrant {s u : State} {count : Nat} (ready : EventReady s) (idle : TraceIdle s)
    (decided : decision s = some (.post, count)) (hu : postWord { s with path.passCount := count } = u)
    (ht : u.trace = s.trace) (hw : u.path.waiting = s.path.waiting) : exec .postGrant s = .next (report u) := by
  refine congrArg Host.Outcome.next (happen_granted ready decided ?_ hw)
  have : TraceIdle u := by
    unfold TraceIdle runningOperation at idle ⊢
    rwa [ht]
  rw [postGranted, hu, runTrace_idle this]

/-- A word written whole in trace memory: it reads back, and no other byte changes. -/
theorem word_written {m m' : List Host.Cell} {a : Nat} {w : Word} (h : Memory.wf m = true) (ha : a < 0x1000000)
    (e : m' = writeWord m a 0xF#4 w) :
    readWord m' a = w ∧ ∀ x, x < a ∨ a + 4 ≤ x → readByte m' x = readByte m x := by
  subst e
  exact ⟨readWord_writeWord h ha w, fun x hx => readByte_writeWord_other h a _ w hx⟩

/-! ### Status words (R156) -/

/-- The place of a status word in the order of R156. -/
def statusPlace (w : Nat) : Nat := if w = 0 then 0 else if 32 ≤ w then w else 224 + w

/-- The order of R156 is that of the places. -/
theorem statusOrder_sorted : statusOrder.Pairwise fun i j : Fin 224 => statusPlace i.val < statusPlace j.val := by
  have rising : (List.finRange 224).Pairwise (· < ·) := List.pairwise_lt_finRange 224
  have part (p : Fin 224 → Bool) (h : ∀ i j : Fin 224, p i = true → p j = true → i < j →
      statusPlace i.val < statusPlace j.val) :
      ((List.finRange 224).filter p).Pairwise fun i j => statusPlace i.val < statusPlace j.val := by
    refine (rising.filter p).imp_of_mem fun hi hj hlt => h _ _ ?_ ?_ hlt
    · exact (List.mem_filter.1 hi).2
    · exact (List.mem_filter.1 hj).2
  unfold statusOrder
  refine List.pairwise_append.2 ⟨List.pairwise_append.2 ⟨part _ ?_, part _ ?_, ?_⟩, part _ ?_, ?_⟩
  all_goals
    intro i
    have := i.isLt
    simp only [List.mem_append, List.mem_filter, decide_eq_true_eq, Fin.lt_def]
    unfold statusPlace
    intros
    split_ifs <;> omega

/-- Every status word has its place in the order. -/
theorem mem_statusOrder (i : Fin 224) : i ∈ statusOrder := by
  simp only [statusOrder, List.mem_append, List.mem_filter, List.mem_finRange, true_and, decide_eq_true_eq]
  omega

/-- The first dirty word in the order of R156 is written next. -/
theorem nextDirty_first {s : State} {i : Fin 224} (dirty : s.mirror.dirty[i] = true)
    (first : ∀ j : Fin 224, s.mirror.dirty[j] = true → statusPlace i.val ≤ statusPlace j.val) : nextDirty s = some i := by
  obtain ⟨j, hj⟩ := Option.isSome_iff_exists.1
    (List.find?_isSome (p := fun i : Fin 224 => s.mirror.dirty[i]).2 ⟨i, mem_statusOrder i, dirty⟩)
  obtain ⟨hd, before, after, split, clean⟩ := List.find?_eq_some_iff_append.1 hj
  have mem := mem_statusOrder i
  have sorted := statusOrder_sorted
  rw [split, List.mem_append, List.mem_cons] at mem
  obtain mem | rfl | mem := mem
  · exact absurd dirty (by simpa using clean i mem)
  · exact hj
  · rw [split, List.pairwise_append, List.pairwise_cons] at sorted
    have lt := sorted.2.1.1 i mem
    have le := first j hd
    omega

/-- Settles O46: the first dirty word of the order is written from the image. -/
theorem statusWordPosted : Obligations.StatusWordPosted := by
  intro i count s ready idle shown wf decided empty owed dirty first apart
  have next : nextDirty { s with path.passCount := count } = some i := nextDirty_first dirty first
  have image : s.mirror.image[i] = statusWord s i.val := by
    rw [show s.mirror.image = _ from shown]
    simp
  set u : State := { s with
    path.passCount := count
    mirror.dirty := s.mirror.dirty.set i false
    mem := writeWord s.mem (statusAddress i.val) 0xF#4 s.mirror.image[i] } with hu
  have posted : postWord { s with path.passCount := count } = u := by
    have word : postWord { s with path.passCount := count } = postStatusWord i { s with path.passCount := count } := by
      simp only [postWord, empty, owed, next]
      simp
    rw [word]
    exact ownWrite_apart (a := statusAddress i.val) (s := { s with
      path.passCount := count
      mirror.dirty := s.mirror.dirty.set i false }) apart _ _ _
  have run := exec_postGrant ready idle decided posted rfl rfl
  have shownU : Mirrored u := shown
  rw [report_shown shownU] at run
  have lt := i.isLt
  obtain ⟨read, others⟩ := word_written (m' := u.mem) wf (a := statusAddress i.val)
    (by unfold statusAddress; omega) rfl
  exact ⟨u, run, read.trans image, others, rfl⟩

/-! ### Records (R150) -/

/-- A word of the head record granted, in a word of no slot's buffer (R150). -/
theorem postRecordWord_apart {r : QRecord} {rest : List QRecord} {base : Nat} {w : Word} {s : State}
    (hbase : base = if s.findings.headWord = 0 then recordBase s r else s.findings.headBase)
    (word : (recordWords r)[s.findings.headWord]? = some w)
    (apart : ∀ k : SlotIx, inAccBuffer s k (base + 4 * s.findings.headWord) = false ∧
      inBaseBuffer s k (base + 4 * s.findings.headWord) = false) :
    let u : State := { s with
      findings.headBase := base
      mem := writeWord s.mem (base + 4 * s.findings.headWord) 0xF#4 w }
    postRecordWord r rest s = if s.findings.headWord + 1 < (recordWords r).length then
      { u with findings.headWord := s.findings.headWord + 1 } else finishRecord r rest u := by
  intro u
  have got : (recordWords r).getD s.findings.headWord 0#32 = w := by simp [List.getD, word]
  unfold postRecordWord
  dsimp only
  rw [← hbase, got, ownWrite_apart (s := { s with findings.headBase := base }) apart]

/-- What a completed record leaves of the findings block and the verdict table (R145, R150, R153). -/
theorem finishRecord_leaves (r : QRecord) (rest : List QRecord) (u : State) :
    let t := finishRecord r rest u
    t.findings.queue = rest ∧ t.findings.headWord = 0 ∧ t.findings.taken = u.findings.taken ∧
    t.findings.seq = u.findings.seq ∧
    (∀ f, r = .finding f → t.findings.post = u.findings.post + 1 ∧
      t.findings.fill = min (ringCapacity u) (u.findings.fill + 1) ∧
      t.verdict.table[f.slot].kind = f.newKind ∧ t.verdict.table[f.slot].location = f.location ∧
      t.verdict.table[f.slot].magnitude = f.magnitude ∧ t.verdict.table[f.slot].unposted = false ∧
      (u.verdict.table[f.slot].inFlight = some f → t.verdict.table[f.slot].inFlight = none) ∧
      (∀ k, k ≠ f.slot → t.verdict.table[k] = u.verdict.table[k])) ∧
    (∀ c n, r = .capture c n → t.findings.captureNotice = (u.findings.captureNotice || n) ∧
      t.findings.post = u.findings.post ∧ t.verdict = u.verdict) ∧
    (∀ sm n, r = .summary sm n → t.findings.sweepEndNotice = (u.findings.sweepEndNotice || n) ∧
      t.findings.post = u.findings.post ∧ t.verdict = u.verdict) := by
  intro t
  cases r with
  | finding f =>
    refine ⟨rfl, rfl, rfl, rfl, ?_, by simp, by simp⟩
    rintro g ⟨rfl⟩
    refine ⟨rfl, rfl, ?_⟩
    have other : ∀ k : SlotIx, k ≠ f.slot → f.slot.val ≠ k.val := fun k hk e => hk (Fin.ext e.symm)
    simp +contextual [t, finishRecord, recordWritten, markDirty, modifySlot, other]
  | capture c n =>
    refine ⟨rfl, rfl, rfl, rfl, by simp, ?_, by simp⟩
    rintro c n ⟨rfl, rfl⟩
    exact ⟨rfl, rfl, rfl⟩
  | summary sm n =>
    refine ⟨rfl, rfl, rfl, rfl, by simp, by simp, ?_⟩
    rintro sm n ⟨rfl, rfl⟩
    exact ⟨rfl, rfl, rfl⟩

/-- Settles O47: the head record's next word, or the next word owed since a hard reset, is written, and the last one
completes its record. -/
theorem recordWordPosted : Obligations.RecordWordPosted := by
  refine ⟨fun count s ready idle shown wf decided empty pos le => ?_,
    fun r rest count base w s ready idle wf decided queue hbase word hlt apart => ?_⟩
  · intro a apart
    set u : State := { s with
      path.passCount := count
      findings.resetCapture := s.findings.resetCapture - 1
      mem := writeWord s.mem a 0xF#4 0#32 } with hu
    have posted : postWord { s with path.passCount := count } = u := by
      have word : postWord { s with path.passCount := count } = postResetWord { s with path.passCount := count } := by
        simp only [postWord, empty]
        simp [show s.findings.resetCapture ≠ 0 by omega]
      rw [word, postResetWord]
      exact ownWrite_apart (s := { s with
        path.passCount := count
        findings.resetCapture := s.findings.resetCapture - 1 }) apart _ _ _
    have run := exec_postGrant ready idle decided posted rfl rfl
    have shownU : Mirrored u := shown
    rw [report_shown shownU] at run
    obtain ⟨read, others⟩ := word_written (m' := u.mem) wf (a := a) (by omega) rfl
    exact ⟨u, run, read, others, rfl⟩
  · set s' : State := { s with path.passCount := count } with hs'
    have base' : base = if s'.findings.headWord = 0 then recordBase s' r else s'.findings.headBase := by
      rw [hbase]
      by_cases h : s.findings.headWord = 0
      · rw [if_neg (by simpa using h), if_pos (by exact h)]
        cases r <;> rfl
      · rw [if_pos h, if_neg (by exact h)]
    have step := postRecordWord_apart (rest := rest) (s := s') base' word apart
    dsimp only at step
    set u : State := { s' with
      findings.headBase := base
      mem := writeWord s.mem (base + 4 * s.findings.headWord) 0xF#4 w } with hu
    have posted : postWord s' = if s.findings.headWord + 1 < (recordWords r).length then
        { u with findings.headWord := s.findings.headWord + 1 } else finishRecord r rest u := by
      simp only [postWord, show s'.findings.queue = r :: rest from queue]
      exact step
    have mem : ∀ t : State, t.mem = u.mem → readWord t.mem (base + 4 * s.findings.headWord) = w ∧
        ∀ x, x < base + 4 * s.findings.headWord ∨ base + 4 * s.findings.headWord + 4 ≤ x →
          readByte t.mem x = readByte s.mem x := fun t ht => word_written wf hlt ht
    by_cases more : s.findings.headWord + 1 < (recordWords r).length
    · rw [if_pos more] at posted
      have run := exec_postGrant ready idle decided posted rfl rfl
      obtain ⟨read, others⟩ := mem _ (by simp : (report { u with findings.headWord := s.findings.headWord + 1 }).mem = u.mem)
      refine ⟨_, run, read, others, fun _ => ?_, fun last => absurd last (by omega), ?_⟩
      · simp [hu, hs']
      · simp [hu, hs']
    · rw [if_neg more] at posted
      have run := exec_postGrant ready idle decided posted (by simp [finishRecord, hu, hs']) (by simp [finishRecord, hu, hs'])
      obtain ⟨read, others⟩ := mem _ (by simp [finishRecord] : (report (finishRecord r rest u)).mem = u.mem)
      obtain ⟨q, hw, taken, seq, finding, capture, summary⟩ := finishRecord_leaves r rest u
      refine ⟨_, run, read, others, fun h => absurd h more, fun _ => ⟨?_, ?_, ?_, ?_, ?_⟩, ?_⟩
      all_goals simp only [report_frame]
      · exact q
      · exact hw
      · exact finding
      · exact capture
      · exact summary
      · refine ⟨taken, seq, ?_⟩
        simp [finishRecord, hu, hs']

end Sys2Proof.Machine
end

section
/-! PROOFS. Shots and their records: headers, words, acceptance, rejection and deadlines (R67 to R77, R80, R85, R86,
R93). -/

namespace Sys2Proof.Machine

/-! ### The slot whose shots count (R69) -/

/-- A slot in FIRING or RESTING holds the acquisition lane of a sweep. -/
theorem shooting_lane {s : State} {k : SlotIx} (h : shootingSlot s = some k) :
    s.seq.state = .sweeping ∧ ∃ p, s.seq.acq = some ⟨k, p⟩ ∧ p.shooting = true := by
  unfold shootingSlot at h
  split at h
  · rename_i l hl
    split at h
    · rename_i hc
      cases h
      exact ⟨hc.1, l.phase, hl, hc.2⟩
    · cases h
  · cases h

/-- Which slot shoots is a matter of the sequencer alone. -/
theorem shootingSlot_of_seq {s t : State} (h : t.seq = s.seq) : shootingSlot t = shootingSlot s := by
  unfold shootingSlot
  rw [h]

/-- A slot that waits for the comparison lane shoots no more. -/
theorem shootingSlot_awaiting {s : State} {k : SlotIx} {held : Held} (h : s.seq.acq = some ⟨k, .awaiting held⟩) :
    shootingSlot s = none := by
  simp [shootingSlot, h, AcqPhase.shooting]

/-! ### Buffers -/

/-- A buffer set is a change of Shot Intake alone. -/
theorem setBuffer_eq (i : BufIx) (b : Buffer) (s : State) :
    setBuffer i b s = { s with intake := (setBuffer i b s).intake } := by
  cases i <;> rfl

/-! ### A run's end (R31, R32, R58, R80, R93) -/

/-- The slot in the acquisition lane reaches AWAITING COMPARE (R31, R58). -/
theorem awaitCompare_eq {s : State} {l : AcqLane} (h : s.seq.acq = some l) (held : Held) : awaitCompare held s =
    { s with seq.acq := some ⟨l.slot, .awaiting held⟩, opt.spacingTimer := none } := by
  simp [awaitCompare, h, spacingElapsed]

/-- The run of the shooting slot ends, from a state that differs in Shot Intake and the line levels. -/
theorem runEnded_of {k : SlotIx} (held : Held) {s : State} (shoots : shootingSlot s = some k)
    (view : s.trace.view = none) {i : IntakeState} (p : PinState) (accepted : i.accepted = s.intake.accepted) :
    RunEnded k held s (report (endRunOf (awaitCompare held { s with intake := i, pins := p }))) := by
  obtain ⟨st, phase, lane, -⟩ := shooting_lane shoots
  rw [awaitCompare_eq (s := { s with intake := i, pins := p }) lane]
  obtain ⟨trace, queue, add, -, -⟩ := endRunOf_held (s := { s with
    intake := i, pins := p, seq.acq := some ⟨k, .awaiting held⟩, opt.spacingTimer := none }) view
  constructor <;> simp [trace, queue, add, accepted]

/-- A slot that waits while the comparison lane is occupied moves nothing. -/
theorem settled_awaiting {s : State} {k : SlotIx} {held : Held} (lane : s.seq.acq = some ⟨k, .awaiting held⟩)
    (comp : s.seq.comp ≠ none) (idle : TraceIdle s) : Settled s := by
  refine ⟨?_, by simp [sweepOver, lane], idle⟩
  simp [laneCalls, lane, Option.isSome_iff_ne_none, comp]

/-- After the run's end nothing fires and nothing goes further while the comparison lane is occupied. -/
theorem advance_runEnded {k : SlotIx} (held : Held) {s : State} (shoots : shootingSlot s = some k)
    (view : s.trace.view = none) (comp : s.seq.comp ≠ none) (trace : TraceSettled s) {i : IntakeState} (p : PinState) :
    let u := endRunOf (awaitCompare held { s with intake := i, pins := p })
    testFire u = u ∧ Settled u := by
  intro u
  obtain ⟨st, phase, lane, -⟩ := shooting_lane shoots
  have hu : u = endRunOf { s with
      intake := i, pins := p, seq.acq := some ⟨k, .awaiting held⟩, opt.spacingTimer := none } := by
    simp only [u]
    rw [awaitCompare_eq (s := { s with intake := i, pins := p }) lane]
  have lane' : u.seq.acq = some ⟨k, .awaiting held⟩ := by simp [hu]
  have held' := (endRunOf_held (s := { s with
    intake := i, pins := p, seq.acq := some ⟨k, .awaiting held⟩, opt.spacingTimer := none }) view).1
  refine ⟨testFire_none fun l hl => ?_, settled_awaiting lane' (by simpa [hu] using comp) (idle_of ?_ ?_)⟩
  · rw [lane'] at hl
    cases hl
    simp
  · rw [hu, held']
    exact view
  · intro b hb
    rw [hu, held'] at hb
    exact trace b hb

/-- With no view read held, a settled state's background operation needs a word. -/
theorem traceSettled_of {s : State} (h : Settled s) (view : s.trace.view = none) : TraceSettled s := by
  obtain ⟨-, -, running, -⟩ := h
  intro b hb
  exact running b ((runningOperation_none view).trans hb)

/-! ### Losses and rejections (R73, R76, R77) -/

/-- A loss, and the test of the failure limit (R76, R77). -/
theorem lose_eq (k : SlotIx) (x : Shot) (s : State) : lose k x s = failureTest (shotLost k x s) := by
  unfold lose shotLost dropShot modifySlot
  cases x.buffer <;> rfl

/-- A rejection, and the test of the failure limit (R73, R77). -/
theorem reject_eq (r : RejectReason) (k : SlotIx) (f : Frame) (s : State) :
    reject r k f s = failureTest (rejected r k f s) := by
  unfold reject rejected dropShot modifySlot
  cases f.buffer <;> rfl

/-- A lost shot changes Shot Intake alone. -/
theorem shotLost_eq (k : SlotIx) (x : Shot) (s : State) :
    shotLost k x s = { s with intake := (shotLost k x s).intake } := setBuffer_eq _ _ _

/-- A rejected record changes Shot Intake alone. -/
theorem rejected_eq (r : RejectReason) (k : SlotIx) (f : Frame) (s : State) :
    rejected r k f s = { s with intake := (rejected r k f s).intake } := setBuffer_eq _ _ _

/-- What a lost shot counts. -/
theorem shotLost_counts (k : SlotIx) (x : Shot) (s : State) :
    (shotLost k x s).intake.failures = s.intake.failures + 1 ∧
    (shotLost k x s).intake.accepted = s.intake.accepted ∧
    (shotLost k x s).intake.lost = s.intake.lost.set k (countUp s.intake.lost[k]) := by
  unfold shotLost
  cases x.buffer <;> exact ⟨rfl, rfl, rfl⟩

/-- What a rejected record counts. -/
theorem rejected_counts (r : RejectReason) (k : SlotIx) (f : Frame) (s : State) :
    (rejected r k f s).intake.failures = s.intake.failures + 1 ∧
    (rejected r k f s).intake.accepted = s.intake.accepted ∧
    (rejected r k f s).intake.rejected = s.intake.rejected.set k (countUp s.intake.rejected[k]) ∧
    (rejected r k f s).intake.lastReject = s.intake.lastReject.set k r := by
  unfold rejected
  cases f.buffer <;> exact ⟨rfl, rfl, rfl, rfl⟩

/-- At the failure limit the run ends FAULTED, reason SAMPLER (R77). -/
theorem failureTest_limit {s w : State} (hw : w = { s with intake := w.intake })
    (hf : w.intake.failures = s.intake.failures + 1)
    (limit : s.intake.failures + 1 = headerFailureLimit (activeHeader s)) : failureTest w =
      endRunOf (awaitCompare .faultedSampler { s with intake := w.intake, pins := s.pins }) := by
  have plan : w.plan = s.plan := by rw [hw]
  refine (if_pos ?_).trans ?_
  · rw [hf, limit]
    unfold activeHeader
    rw [plan]
  · exact congrArg (fun u => endRunOf (awaitCompare .faultedSampler u)) hw

/-- The run's end in Shot Intake leaves the counts. -/
theorem runEnded_counts (held : Held) (w : State) :
    (report (endRunOf (awaitCompare held w))).intake.failures = w.intake.failures ∧
    (report (endRunOf (awaitCompare held w))).intake.lost = w.intake.lost ∧
    (report (endRunOf (awaitCompare held w))).intake.rejected = w.intake.rejected ∧
    (report (endRunOf (awaitCompare held w))).intake.lastReject = w.intake.lastReject := by
  simp

/-! ### Deadlines -/

/-- Settles O38: the shot with the sequence is lost, and the failure limit ends the run. -/
theorem deadlineLosesShot : Obligations.DeadlineLosesShot := by
  intro q s ready settled
  have waits : ∀ u : State, deadlineTaken q s = u → u.path.waiting = s.path.waiting →
      exec (.shotDeadlineExpiry q) s = .next (report u) := fun u hu hw =>
    congrArg Host.Outcome.next (happen_eq ready hu hw)
  refine ⟨fun k x shoots found spaced => ?_, fun none => ?_⟩
  · have taken : deadlineExpired q s = testFire (lose k x s) := by simp only [deadlineExpired, found, shoots]
    have seq : (shotLost k x s).seq = s.seq := by rw [shotLost_eq]
    obtain ⟨failures, accepted, lost⟩ := shotLost_counts k x s
    refine ⟨fun below => waits _ ?_ (by rw [shotLost_eq]), fun limit comp view => ?_⟩
    · have spaced' : Spaced (shotLost k x s) := by
        rw [shotLost_eq]
        exact spaced
      rw [deadlineTaken, taken, lose_below_limit below, testFire_spaced spaced']
      exact advance_settled (settled_of settled seq (by rw [shotLost_eq]) (by rw [shotLost_eq]))
    · have ends := failureTest_limit (shotLost_eq k x s) failures limit
      have trace := traceSettled_of settled view
      obtain ⟨fires, rests⟩ := advance_runEnded .faultedSampler shoots view comp trace
        (i := (shotLost k x s).intake) s.pins
      refine ⟨_, waits _ ?_ ?_, runEnded_of .faultedSampler shoots view s.pins accepted, ?_, ?_⟩
      · rw [deadlineTaken, taken, lose_eq, ends, fires]
        exact advance_settled rests
      · simp
      · exact (runEnded_counts _ _).1.trans failures
      · exact (runEnded_counts _ _).2.1.trans lost
  · refine waits _ ?_ rfl
    have missing : s.intake.outstanding.find? (fun y => y.sequence == q) = Option.none :=
      List.find?_eq_none.2 fun x hx => by simpa using none x hx
    have same : deadlineExpired q s = s := by simp [deadlineExpired, missing]
    rw [deadlineTaken, same, advance_settled settled]

/-! ### Headers (R68, R69) -/

/-- A shot-window write on a ready bus, with Shot Intake's work changing nothing that moves by itself. -/
theorem exec_shotWrite {s u : State} (ready : BusReady s) (settled : Settled s) {offset : BitVec 14} {be : Enables}
    {data : Word} (hu : shotWindowWrite offset.toNat be data s = u) (seq : u.seq = s.seq)
    (bg : u.trace.bg = s.trace.bg) (view : u.trace.view = s.trace.view) :
    Host.Outcome.next (present ⟨shotAddress (offset ++ 0#2), true, be, data⟩ s) =
      (.next (report u) : Host.Outcome State Fault Refusal) :=
  congrArg Host.Outcome.next (present_shot_settled ready settled hu seq bg view)

/-- A header write goes to Shot Intake at word 0. -/
theorem exec_headerWrite {s u : State} (ready : BusReady s) (settled : Settled s) (on : s.seq.state ≠ .off)
    {header : Word} (hu : headerWritten header s = u) (seq : u.seq = s.seq) (trace : u.trace = s.trace) :
    exec (.headerWrite header) s = .next (report u) :=
  exec_shotWrite (offset := 0) (be := 0xF#4) ready settled
    (by simpa [shotWindowWrite, on] using hu) seq (by rw [trace]) (by rw [trace])

/-- A framed record changes Shot Intake alone. -/
theorem framed_eq (k : SlotIx) (x : Shot) (header : Word) (s : State) :
    framed k x header s = { s with intake := (framed k x header s).intake } := setBuffer_eq _ _ _

/-- A record framed as the statements say it. -/
theorem frameRecord_eq (k : SlotIx) (x : Shot) (header : Word) (s : State) : frameRecord k x header s = framed k x header s :=
  rfl

/-- A header of the shooting slot is matched against its outstanding shots (R69). -/
theorem matchHeader_own {s : State} {k : SlotIx} {header : Word} (shoots : shootingSlot s = some k)
    (slot : shotSlot header = k.val) (source : shotSource header = recSource (activeRecord s k)) :
    matchHeader header s = matchShot k header s := by
  simp only [matchHeader, shoots]
  rw [if_pos ⟨slot, source⟩]

/-- A header with no record in progress is matched at once (R68). -/
theorem frameHeader_idle {s : State} (h : s.intake.framing = none) (header : Word) :
    frameHeader header s = matchHeader header s := by
  simp [frameHeader, h]

/-- A header that names no outstanding shot of the shooting slot is stale (R69, R83). -/
theorem matchHeader_stale {s : State} {header : Word}
    (h : ∀ k, shootingSlot s = some k → shotSlot header = k.val → shotSource header = recSource (activeRecord s k) →
      ∀ x ∈ s.intake.outstanding, x.sequence ≠ shotSequence header) : matchHeader header s = staleHeader s := by
  unfold matchHeader
  split
  · rename_i k shoots
    split
    · rename_i names
      have other := h k shoots names.1 names.2
      unfold matchShot
      split
      · rename_i old rest list
        rw [list] at other
        have missing : rest.find? (fun x => x.sequence == shotSequence header) = none :=
          List.find?_eq_none.2 fun x hx => by simpa using other x (by simp [hx])
        rw [if_neg (other old (by simp)), missing]
      · rfl
    · rfl
  · rfl

/-- Settles O34: the header names the oldest shot, the younger, or none. -/
theorem headerMatched : Obligations.HeaderMatched := by
  intro header s ready settled on idle
  refine ⟨fun k x rest shoots list slot source sequence => ?_,
    fun k x y shoots list slot source older younger below spaced => ?_, fun stale => ?_⟩
  · refine exec_headerWrite ready settled on ?_ (by rw [framed_eq]) (by rw [framed_eq])
    have frames : frameHeader header s = framed k x header s := by
      rw [frameHeader_idle idle, matchHeader_own shoots slot source, matchShot, list]
      exact if_pos sequence
    have failures : (framed k x header s).intake.failures = s.intake.failures := setBuffer_failures _ _ _
    unfold headerWritten
    dsimp only
    rw [frames, if_pos failures]
  · set u := framed k y header (shotLost k x s) with hu
    have ueq : u = { s with intake := u.intake } := by
      rw [hu, framed_eq, shotLost_eq]
    refine exec_headerWrite ready settled on ?_ (by rw [ueq]) (by rw [ueq])
    have frames : frameHeader header s = u := by
      rw [frameHeader_idle idle, matchHeader_own shoots slot source, matchShot, list]
      refine (if_neg older).trans ?_
      have seq : (shotLost k x s).seq = s.seq := by rw [shotLost_eq]
      simp only [List.find?, younger, beq_self_eq_true, overtake, lose_below_limit below,
        shootingSlot_of_seq seq, shoots, if_true]
      rfl
    have failures : u.intake.failures ≠ s.intake.failures := by
      have : u.intake.failures = (shotLost k x s).intake.failures := setBuffer_failures _ _ _
      rw [this, (shotLost_counts k x s).1]
      omega
    unfold headerWritten
    dsimp only
    rw [frames, if_neg failures]
    refine testFire_spaced ?_
    rw [ueq]
    exact spaced
  · refine exec_headerWrite ready settled on ?_ rfl rfl
    unfold headerWritten
    dsimp only
    rw [frameHeader_idle idle, matchHeader_stale stale]
    exact if_pos rfl

/-! ### Sample words (R67, R70) -/

/-- A full-word write at another offset goes to Shot Intake. -/
theorem exec_wordWrite {s u : State} (ready : BusReady s) (settled : Settled s) (on : s.seq.state ≠ .off)
    {offset : BitVec 14} (other : offset ≠ 0) {data : Word} (hu : wordWritten offset.toNat data s = u)
    (seq : u.seq = s.seq) (bg : u.trace.bg = s.trace.bg) (view : u.trace.view = s.trace.view) :
    exec (.wordWrite offset data) s = .next (report u) := by
  have pos : offset.toNat ≠ 0 := fun h => other (BitVec.eq_of_toNat_eq (by simpa using h))
  exact exec_shotWrite (be := 0xF#4) ready settled (by simpa [shotWindowWrite, on, pos] using hu) seq bg view

/-- A shot-window write discarded changes nothing. -/
theorem exec_shotDiscarded {s : State} (ready : BusReady s) (settled : Settled s) {offset : BitVec 14} {be : Enables}
    {data : Word} (hu : shotWindowWrite offset.toNat be data s = s) :
    Host.Outcome.next (present ⟨shotAddress (offset ++ 0#2), true, be, data⟩ s) =
      (.next (report s) : Host.Outcome State Fault Refusal) :=
  exec_shotWrite ready settled hu rfl rfl rfl

/-- Settles O35: a sample word below the check word is stored; the rest is discarded. -/
theorem wordsTaken : Obligations.WordsTaken := by
  intro offset data s ready settled other
  refine ⟨fun k f r on shoots framing filling offset_eq below => ?_, fun discards => ?_, fun off => ?_⟩
  · have took : wordWritten offset.toNat data s = takeSample f data s := by
      simp only [wordWritten, framing, shoots]
      rw [if_neg (not_not.2 offset_eq), if_pos (by omega)]
    have stored : takeSample f data s = setBuffer f.buffer (.filling { r with samples := r.samples ++ [data] })
        { s with intake.framing := some { f with next := f.next + 1, crc := crcWord f.crc data } } := by
      simp only [takeSample, filling, appendSample]
    rw [stored] at took
    exact exec_wordWrite ready settled on other took (by simp) (by simp) (by simp)
  · have gone (be : Enables) : shotWindowWrite offset.toNat be data s = s := by
      have pos : offset.toNat ≠ 0 := fun h => other (BitVec.eq_of_toNat_eq (by simpa using h))
      unfold shotWindowWrite
      obtain idle | off := discards
      · simp [partialWritten, wordWritten, idle, pos]
      · rw [if_pos off]
    exact ⟨exec_shotDiscarded ready settled (gone _), fun be _ => exec_shotDiscarded ready settled (gone be)⟩
  · exact exec_shotDiscarded (offset := 0) (be := 0xF#4) ready settled (if_pos off)

end Sys2Proof.Machine
end

section
/-! PROOFS. Records judged: rejections, and acceptance with the accumulation queue (R62, R68, R71 to R73, R77, R85, R86,
R100). -/

namespace Sys2Proof.Machine

/-! ### Rejections (R73, R77) -/

/-- What a rejection leaves for a reason: the record gone, or at the failure limit the run ended FAULTED. -/
def Gone (k : SlotIx) (f : Frame) (s : State) (reason : RejectReason) (t : State) : Prop :=
  (s.intake.failures + 1 ≠ headerFailureLimit (activeHeader s) → t = report (rejected reason k f s)) ∧
  (s.intake.failures + 1 = headerFailureLimit (activeHeader s) →
    RunEnded k .faultedSampler s t ∧ t.intake.failures = s.intake.failures + 1 ∧
    t.intake.rejected = s.intake.rejected.set k (countUp s.intake.rejected[k]) ∧
    t.intake.lastReject = s.intake.lastReject.set k reason)

/-- A write that rejects the record in progress leaves it gone (R73, R77). -/
theorem shotWrite_rejects {k : SlotIx} {f : Frame} {s : State} (ready : BusReady s) (settled : Settled s)
    (shoots : shootingSlot s = some k) (comp : s.seq.comp ≠ none) (spaced : Spaced s) {reason : RejectReason}
    {offset : BitVec 14} {be : Enables} {data : Word}
    (hw : shotWindowWrite offset.toNat be data s = testFire (reject reason k f s)) :
    ∃ t, (Host.Outcome.next (present ⟨shotAddress (offset ++ 0#2), true, be, data⟩ s) :
      Host.Outcome State Fault Refusal) = .next t ∧ Gone k f s reason t := by
  refine ⟨_, rfl, fun below => ?_, fun limit => ?_⟩
  · have same := rejected_eq reason k f s
    have spaced' : Spaced (rejected reason k f s) := by
      rw [same]
      exact spaced
    rw [reject_below_limit below, testFire_spaced spaced'] at hw
    exact present_shot_settled ready settled hw (by rw [same]) (by rw [same]) (by rw [same])
  · obtain ⟨failures, accepted, counted, last⟩ := rejected_counts reason k f s
    have ends := failureTest_limit (rejected_eq reason k f s) failures limit
    obtain ⟨fires, rests⟩ := advance_runEnded .faultedSampler shoots ready.noView comp
      (traceSettled_of settled ready.noView) (i := (rejected reason k f s).intake) s.pins
    rw [reject_eq, ends, fires] at hw
    have run : present ⟨shotAddress (offset ++ 0#2), true, be, data⟩ s = _ := present_shot ready offset be data
    rw [hw, advance_settled (settled_report rests), report_report] at run
    rw [run]
    obtain ⟨hf, -, hr, hl⟩ := runEnded_counts .faultedSampler { s with intake := (rejected reason k f s).intake }
    exact ⟨runEnded_of .faultedSampler shoots ready.noView s.pins accepted, hf.trans failures, hr.trans counted,
      hl.trans last⟩

/-- The record in progress of the shooting slot is the one rejected. -/
theorem rejectInProgress_own {k : SlotIx} {f : Frame} {s : State} (shoots : shootingSlot s = some k)
    (framing : s.intake.framing = some f) (reason : RejectReason) :
    rejectInProgress reason s = reject reason k f s := by
  simp only [rejectInProgress, framing, shoots]

/-- A full-word write with a record in progress (R70, R71). -/
theorem shotWindowWrite_word {k : SlotIx} {f : Frame} {s : State} (on : s.seq.state ≠ .off)
    (shoots : shootingSlot s = some k) (framing : s.intake.framing = some f) {offset : BitVec 14} (other : offset ≠ 0)
    (data : Word) : shotWindowWrite offset.toNat 0xF#4 data s =
      if offset.toNat ≠ f.next then testFire (reject .misordered k f s)
      else if offset.toNat < f.check then takeSample f data s
      else judgeRecord k f data s := by
  have pos : offset.toNat ≠ 0 := fun h => other (BitVec.eq_of_toNat_eq (by simpa using h))
  simp only [shotWindowWrite, on, if_false, ne_eq, not_true_eq_false, pos, wordWritten, framing, shoots]

/-- Settles O37: each reason's write comes to the rejection of the record in progress. -/
theorem recordRejected : Obligations.RecordRejected := by
  intro k f s ready settled on shoots framing comp spaced gone
  refine ⟨fun offset data other => ⟨fun misordered => ?_, fun expected last => ⟨fun differs => ?_,
    fun agrees r filling clipped policy => ?_⟩⟩, fun offset be data enables => ?_, fun header below own => ?_⟩
  · refine shotWrite_rejects ready settled shoots comp spaced ?_
    rw [shotWindowWrite_word on shoots framing other, if_pos misordered]
  · refine shotWrite_rejects ready settled shoots comp spaced ?_
    rw [shotWindowWrite_word on shoots framing other, if_neg (by omega), if_neg (by omega), judgeRecord, if_pos differs]
  · refine shotWrite_rejects ready settled shoots comp spaced ?_
    have record : bufferRecord s f.buffer = r := by simp only [bufferRecord, filling]
    rw [shotWindowWrite_word on shoots framing other, if_neg (by omega), if_neg (by omega), judgeRecord,
      if_neg (not_not.2 agrees), record, clipped, policy]
    rfl
  · refine shotWrite_rejects ready settled shoots comp spaced ?_
    have : partialWritten s = testFire (reject .partialWrite k f s) := by
      simp only [partialWritten, framing, rejectInProgress_own shoots framing]
    rw [shotWindowWrite, if_neg on, if_pos enables, this]
  · set w := rejected .truncated k f s with hw
    have same : w = { s with intake := w.intake } := rejected_eq _ _ _ _
    have shoots' : shootingSlot w = some k := (shootingSlot_of_seq (by rw [same])).trans shoots
    have none : w.intake.outstanding = [] := by
      have : w.intake.outstanding = s.intake.outstanding.filter fun x => x.sequence != f.sequence := by
        simp [hw, rejected]
      rw [this]
      exact List.filter_eq_nil_iff.2 fun x hx => by simp [own x hx]
    have frames : frameHeader header s = { w with intake.stray := true } := by
      have some : s.intake.framing.isSome = true := by simp [framing]
      simp only [frameHeader, some, if_true, rejectInProgress_own shoots framing, reject_below_limit below, ← hw, shoots']
      exact (if_neg (by simp)).trans (matchHeader_stale fun _ _ _ _ x hx => by simp [none] at hx)
    refine exec_headerWrite ready settled on ?_ (by rw [same]) (by rw [same])
    have failures : ({ w with intake.stray := true } : State).intake.failures ≠ s.intake.failures := by
      have := (rejected_counts .truncated k f s).1
      change w.intake.failures ≠ _
      rw [hw, this]
      omega
    unfold headerWritten
    dsimp only
    rw [frames, if_neg failures]
    refine testFire_spaced ?_
    rw [same]
    exact spaced

/-! ### Acceptance (R72, R85, R86) -/

/-- The test for the next add changes the Accumulation Engine alone (R86). -/
theorem testAdd_eq (s : State) : testAdd s = { s with accum := (testAdd s).accum } := by
  unfold testAdd
  split
  · split <;> rfl
  · rfl

/-- With one record queued, the add begins where the engine and the slot's lock are free, and the record waits elsewhere
(R86). -/
theorem testAdd_single {s : State} {e : QueueEntry} (queue : s.accum.queue = [e]) : (testAdd s).accum =
    if s.accum.add = none ∧ s.accum.lock[e.slot] = .free then { s.accum with
      queue := []
      add := some ⟨e.slot, e.buffer, if s.intake.accepted[e.slot] = 0 then .write else .add, e.clipped, 0, none⟩
      lock := s.accum.lock.set e.slot .adding }
    else s.accum := by
  simp only [testAdd, queue]
  split_ifs <;> simp [setLock]

/-- The LAST ACCEPTED timepoint moves test-active alone (R62). -/
theorem lastAcceptedTest_eq (k : SlotIx) (s : State) : lastAcceptedTest k s = { s with
    opt.testActive := s.opt.testActive && !(headerLastAccepted (activeHeader s) &&
      decide (s.intake.accepted[k] + queuedBuffers s = recTarget (activeRecord s k))) } := by
  unfold lastAcceptedTest
  by_cases reached : s.intake.accepted[k] + queuedBuffers s = recTarget (activeRecord s k)
  · cases last : headerLastAccepted (activeHeader s)
    · rw [if_neg (by simp)]
      simp
    · rw [if_pos ⟨reached, rfl⟩, decide_eq_true reached]
      simp [deassertTestActive]
  · rw [if_neg fun h => reached h.1, decide_eq_false reached]
    simp

/-- The Trace Engine after an accepted record: CLIPPED is raised for a clipped one (R72, R100, R101). -/
def acceptedTrace (k : SlotIx) (clipped : Bool) (s : State) : TraceState :=
  if clipped then { s.trace with
    summary := { s.trace.summary with clipped := true }
    seen := s.trace.seen.set k { s.trace.seen[k] with clipped := true }
    clipNote := s.trace.clipNote.set k true }
  else s.trace

/-- An accepted record, block by block (R72). -/
theorem acceptRecord_eq {k : SlotIx} {f : Frame} {r : ShotRecord} {s : State} (filling : bufferAt s f.buffer = .filling r)
    (empty : s.accum.queue = []) (spaced : Spaced s) :
    let i := (setBuffer f.buffer (.queued r) { s with
      intake.outstanding := s.intake.outstanding.filter fun x => x.sequence != f.sequence
      intake.framing := none
      intake.failures := 0 }).intake
    acceptRecord k f s = lastAcceptedTest k { s with
      intake := i
      accum := (testAdd { s with intake := i, accum.queue := [⟨k, f.buffer, shotClipped r.header⟩] }).accum
      trace := acceptedTrace k (shotClipped r.header) s } := by
  intro i
  have record : bufferRecord s f.buffer = r := by simp only [bufferRecord, filling]
  set e : QueueEntry := ⟨k, f.buffer, shotClipped r.header⟩ with he
  set s1 := setBuffer f.buffer (.queued r) (dropShot f.sequence { s with intake.framing := none }) with hs1
  have queued : ({ s1 with accum.queue := s1.accum.queue ++ [e], intake.failures := 0 } : State) =
      { s with intake := i, accum.queue := [e] } := by
    have accum : s1.accum = s.accum := by simp [hs1, dropShot]
    rw [accum, empty, hs1]
    simp only [i]
    cases f.buffer <;> rfl
  have raises (w : State) (clipped : Bool) : (if clipped then raiseClipped k w else w) =
      { w with trace := acceptedTrace k clipped w } := by
    cases clipped <;> simp [acceptedTrace, raiseClipped, raiseCondition, modifySlot, CondSet.insert]
  have steps : acceptRecord k f s = testFire (lastAcceptedTest k (if shotClipped r.header then
      raiseClipped k (testAdd { s1 with accum.queue := s1.accum.queue ++ [e], intake.failures := 0 })
      else testAdd { s1 with accum.queue := s1.accum.queue ++ [e], intake.failures := 0 })) := by
    simp only [acceptRecord, record]
    rfl
  rw [steps, queued, testAdd_eq, raises]
  refine testFire_spaced ?_
  rw [lastAcceptedTest_eq]
  exact spaced

/-- Settles O36: the record is queued, the add tested, CLIPPED raised, and the LAST ACCEPTED timepoint taken. -/
theorem recordAccepted : Obligations.RecordAccepted := by
  intro k f r data offset s ready settled on shoots framing filling other expected last agrees policy empty spaced
  have record : bufferRecord s f.buffer = r := by simp only [bufferRecord, filling]
  have accepts : shotWindowWrite offset.toNat 0xF#4 data s = acceptRecord k f s := by
    rw [shotWindowWrite_word on shoots framing other, if_neg (by omega), if_neg (by omega), judgeRecord,
      if_neg (not_not.2 agrees), record, policy]
    rfl
  rw [acceptRecord_eq filling empty spaced, lastAcceptedTest_eq] at accepts
  set i := (setBuffer f.buffer (.queued r) { s with
    intake.outstanding := s.intake.outstanding.filter fun x => x.sequence != f.sequence
    intake.framing := none
    intake.failures := 0 }).intake with hi
  have accepted : i.accepted = s.intake.accepted := by simp [hi]
  have trace : ∀ b, (acceptedTrace k b s).bg = s.trace.bg ∧ (acceptedTrace k b s).view = s.trace.view := fun b => by
    unfold acceptedTrace
    split <;> exact ⟨rfl, rfl⟩
  have accum := testAdd_single (s := { s with intake := i, accum.queue := [⟨k, f.buffer, shotClipped r.header⟩] }) rfl
  have run := exec_shotWrite ready settled accepts rfl (trace _).1 (trace _).2
  refine ⟨_, run, ?_, fun free lock => ?_, fun waits => ?_, fun clear => ?_, fun clips => ?_, ?_⟩
  · simp
  · simp only [report_frame]
    refine accum.trans ((if_pos ⟨free, lock⟩).trans ?_)
    simp [accepted, empty]
  · simp only [report_frame]
    exact accum.trans (if_neg fun h => by tauto)
  · simp [acceptedTrace, clear]
  · simp [acceptedTrace, clips]
  · refine ⟨?_, by simp⟩
    simp [accepted, queuedBuffers, activeHeader, activeRecord]

end Sys2Proof.Machine
end

section
/-! PROOFS. The side lines and the timers: what fires, what rests, and events that find nothing to act on (R26, R27, R38,
R47 to R60, R178). -/

namespace Sys2Proof.Machine

/-! ### The firing conditions (R56) -/

/-- The conditions of R56 but the duty limit, as the statements group them. -/
theorem fireAllowedButDuty_iff {s : State} {k : SlotIx} (lane : s.seq.acq = some ⟨k, .firing⟩) :
    fireAllowedButDuty s k = true ↔ OnlyDutyStops k s := by
  have buffers : someBufferFree s = true ↔ s.intake.buffer0 = .free ∨ s.intake.buffer1 = .free := by
    simp [someBufferFree]
  constructor
  · intro h
    simp only [fireAllowedButDuty, Bool.and_eq_true, decide_eq_true_eq, Bool.not_eq_true', Option.isNone_iff_eq_none,
      buffers] at h
    obtain ⟨⟨⟨⟨⟨⟨st, room⟩, buffer⟩, wanted⟩, spacing⟩, gate⟩, live⟩ := h
    exact ⟨⟨⟨st, lane⟩, room, buffer, wanted⟩, spacing, gate, live⟩
  · rintro ⟨⟨⟨st, -⟩, room, buffer, wanted⟩, spacing, gate, live⟩
    simp only [fireAllowedButDuty, Bool.and_eq_true, decide_eq_true_eq, Bool.not_eq_true', Option.isNone_iff_eq_none,
      buffers]
    exact ⟨⟨⟨⟨⟨⟨st, room⟩, buffer⟩, wanted⟩, spacing⟩, gate⟩, live⟩

/-- The duty condition of R56. -/
theorem dutyAllows_iff (s : State) (k : SlotIx) : dutyAllows s k = true ↔ DutyLeft k s := by
  unfold dutyAllows
  exact decide_eq_true_iff

/-- A slot in FIRING that only the duty limit could stop fires or rests (R56, R60). -/
theorem testFire_acts {s : State} {k : SlotIx} (h : OnlyDutyStops k s) :
    (DutyLeft k s → testFire s = fire k s) ∧
    (¬ DutyLeft k s → testFire s = report { s with seq.acq := some ⟨k, .resting⟩ }) := by
  have lane := h.1.firing.2
  have allowed := (fireAllowedButDuty_iff lane).2 h
  have tested : testFire s = if dutyAllows s k then fire k s else report { s with seq.acq := some ⟨k, .resting⟩ } := by
    simp only [testFire, lane]
    exact if_pos ⟨trivial, allowed⟩
  rw [tested]
  exact ⟨fun d => if_pos ((dutyAllows_iff s k).2 d), fun d => if_neg fun hd => d ((dutyAllows_iff s k).1 hd)⟩

/-- A slot in FIRING that another condition holds does not fire. -/
theorem testFire_held {s : State} (h : ∀ k, ¬ OnlyDutyStops k s) : testFire s = s := by
  unfold testFire
  split
  · rename_i l lane
    refine if_neg ?_
    rintro ⟨firing, allowed⟩
    have lane' : s.seq.acq = some ⟨l.slot, .firing⟩ := by rw [lane, ← firing]
    exact h l.slot ((fireAllowedButDuty_iff lane').1 allowed)
  · rfl

/-- A fire is a shot fired (R57, R74, R75). -/
theorem shotFired_fire (k : SlotIx) (s : State) : ShotFired k s (report (fire k s)) := by
  have slot : (BitVec.ofNat 5 k.val).toNat = k.val := by
    have := k.isLt
    simp only [BitVec.toNat_ofNat]
    omega
  have buffer : bufferToReserve s = if s.intake.buffer0 = .free then BufIx.b0 else .b1 := rfl
  constructor
  case outstanding =>
    refine ⟨bufferToReserve s, ?_, buffer, ?_, ?_⟩
    · simp [fire]
    all_goals
      rw [buffer]
      split <;> simp [fire, setBuffer, *]
  case lines => exact ⟨by simp [fire], by simp [fire, slot], by simp [fire], by simp [fire]⟩
  case kept =>
    have framing : (fire k s).intake.framing = s.intake.framing := by
      simp only [fire]
      cases bufferToReserve s <;> rfl
    simp [framing]
  all_goals simp [fire]

/-- What a fire shows does not depend on the mirror it was fired from. -/
theorem shotFired_mirror {k : SlotIx} {s t : State} {m : MirrorState} (h : ShotFired k { s with mirror := m } t) :
    ShotFired k s t :=
  ⟨h.outstanding, h.duty, h.sequence, h.spacing, h.testActive, h.lines, h.kept⟩

/-- The firing conditions do not depend on the mirror. -/
theorem onlyDutyStops_mirror {k : SlotIx} {s : State} (h : OnlyDutyStops k s) (m : MirrorState) :
    OnlyDutyStops k { s with mirror := m } :=
  ⟨⟨h.1.firing, h.1.room, h.1.buffer, h.1.wanted⟩, h.2⟩

/-- A slot in SETTLING, GUARDING, FIRING or RESTING moves nothing. -/
theorem settled_lane {s : State} {l : AcqLane} (lane : s.seq.acq = some l) (phase : ∀ h, l.phase ≠ .awaiting h)
    (idle : TraceIdle s) : Settled s := by
  refine ⟨?_, by simp [sweepOver, lane], idle⟩
  unfold laneCalls
  rw [lane]
  obtain ⟨k, p⟩ := l
  cases p <;> simp_all

/-- The Trace Engine's idleness is a matter of the Trace Engine. -/
theorem traceIdle_of {s t : State} (h : TraceIdle s) (ht : t.trace = s.trace) : TraceIdle t := by
  unfold TraceIdle runningOperation at *
  rwa [ht]

/-! ### The end of SETTLING (R51, R54) -/

/-- SETTLING does not end while the port is UNSETTLED or the source not WARM (R51). -/
theorem settlingTest_waits {s : State} (h : ∀ k, s.seq.acq = some ⟨k, .settling⟩ → s.opt.settled = true →
    warmOf s (recSource (activeRecord s k)) ≠ .warm) : settlingTest s = s := by
  unfold settlingTest
  split
  · rename_i l lane
    refine if_neg ?_
    rintro ⟨phase, settled, warm⟩
    exact h l.slot (by rw [lane, ← phase]) settled warm
  · rfl

/-- SETTLING ends: GUARDING is passed, and the guard decides (R51, R54; log entry 14). -/
theorem settlingTest_ends {s : State} {k : SlotIx} (lane : s.seq.acq = some ⟨k, .settling⟩) (settled : s.opt.settled = true)
    (warm : warmOf s (recSource (activeRecord s k)) = .warm) :
    ∃ m, settlingTest s = if s.pins.liveLight then
        { s with seq.acq := some ⟨k, .awaiting .live⟩, opt.spacingTimer := none, mirror := m }
      else testFire (report { s with seq.acq := some ⟨k, .firing⟩, mirror := m }) := by
  refine ⟨(report { s with seq.acq := some ⟨k, .guarding⟩ }).mirror, ?_⟩
  have ends : settlingTest s = guardCheck (report { s with seq.acq := some ⟨k, .guarding⟩ }) := by
    simp only [settlingTest, lane, setPhase]
    exact if_pos ⟨trivial, settled, warm⟩
  rw [ends, guardCheck]
  have lane' : (report { s with seq.acq := some ⟨k, .guarding⟩ }).seq.acq = some ⟨k, .guarding⟩ := by simp
  refine if_congr (by simp) ?_ ?_
  · rw [awaitCompare_eq lane']
    rfl
  · simp only [setPhase, lane']
    rfl

/-- An expiry that ends SETTLING, from the state it leaves with the slot in FIRING (R51, R54, R56, R60). -/
theorem settling_ends {s v : State} {k : SlotIx} {f : State → State} {c : Instr} (ready : EventReady s) (idle : TraceIdle s)
    (hc : exec c s = .next (happen f s)) (hf : f s = advance (settlingTest v))
    (hv : v = { s with opt := v.opt }) (lane : s.seq.acq = some ⟨k, .settling⟩) (settled : v.opt.settled = true)
    (warm : warmOf v (recSource (activeRecord s k)) = .warm) :
    let u : State := { v with seq.acq := some ⟨k, .firing⟩ }
    (OnlyDutyStops k u →
      (DutyLeft k u → ∃ t, exec c s = .next t ∧ ShotFired k u t ∧ t.pins = s.pins) ∧
      (¬ DutyLeft k u → ∃ t, exec c s = .next t ∧ t.seq = { s.seq with acq := some ⟨k, .resting⟩ } ∧
        t.intake = s.intake ∧ t.opt = u.opt ∧ t.pins = s.pins)) ∧
    (s.pins.liveLight = true → s.seq.comp ≠ none →
      ∃ t, exec c s = .next t ∧ t.seq = { s.seq with acq := some ⟨k, .awaiting .live⟩ } ∧ t.intake = s.intake ∧
        t.opt.settled = true ∧ warmOf t (recSource (activeRecord s k)) = .warm ∧ t.opt.spacingTimer = none) := by
  intro u
  generalize ho : v.opt = o at hv settled
  subst hv
  obtain ⟨m, ends⟩ := settlingTest_ends (s := { s with opt := o }) lane settled warm
  rw [ends] at hf
  have done (w : State) (hw : f s = advance w) (rests : Settled w) (waiting : w.path.waiting = s.path.waiting) :
      exec c s = .next (report w) := by
    rw [hc]
    exact congrArg Host.Outcome.next (happen_eq ready (hw.trans (advance_settled rests)) waiting)
  refine ⟨fun only => ?_, fun live comp => ?_⟩
  · have dark : s.pins.liveLight = false := only.2.2.2
    obtain ⟨n, hn⟩ : ∃ n, report { s with opt := o, seq.acq := some ⟨k, .firing⟩, mirror := m } =
        { u with mirror := n } := ⟨_, rfl⟩
    have only' := onlyDutyStops_mirror only n
    obtain ⟨fires, rests⟩ := testFire_acts only'
    have hf' : f s = advance (testFire { u with mirror := n }) :=
      hf.trans (congrArg advance ((if_neg (by simp [dark])).trans (congrArg testFire hn)))
    refine ⟨fun left => ?_, fun spent => ?_⟩
    · rw [fires left] at hf'
      refine ⟨_, done _ hf' (settled_lane (l := ⟨k, .firing⟩) (by simp [u]) (by simp) (traceIdle_of idle (by simp [u])))
        (by simp [u]), shotFired_mirror (shotFired_fire k _), by simp [u]⟩
    · rw [rests spent] at hf'
      refine ⟨_, done _ hf' (settled_lane (l := ⟨k, .resting⟩) (by simp) (by simp) (traceIdle_of idle (by simp [u])))
        (by simp [u]), ?_⟩
      simp [u]
  · refine ⟨_, done _ (hf.trans (congrArg advance (if_pos live)))
      (settled_awaiting (k := k) (held := .live) rfl comp (traceIdle_of idle rfl)) rfl, ?_⟩
    simp only [report_frame]
    refine ⟨trivial, trivial, settled, ?_, trivial⟩
    simpa [warmOf] using warm

/-- Settles O54: either timer may be the one that ends SETTLING. -/
theorem settlingEnds : Obligations.SettlingEnds := by
  intro k s ready idle st lane src ends
  refine ⟨fun running warm => ?_, fun w running source exists' settled => ?_⟩
  · obtain ⟨t, ht⟩ := Option.ne_none_iff_exists'.1 running
    exact settling_ends (f := settleExpired) (v := { s with opt.settled := true, opt.settleTimer := none }) ready idle rfl
      (by simp [settleExpired, ht]) rfl lane rfl warm
  · refine settling_ends (f := warmUpExpired) (v := { s with
      opt.warm := sourceSet s.opt.warm src .warm
      opt.warmUpTimer := none }) ready idle rfl (by simp [warmUpExpired, running, source]) rfl lane settled ?_
    change sourceGet (sourceSet s.opt.warm src .warm) src .cold = .warm
    have := src.isLt
    have other : src.toNat ≠ 3 := fun h => exists' (BitVec.eq_of_toNat_eq (by simpa using h))
    unfold sourceGet sourceSet
    split <;> simp_all
    omega

/-- Settles O55: the spacing's end tests firing, and the duty period's end returns a slot in RESTING to FIRING. -/
theorem firingTested : Obligations.FiringTested := by
  intro k s ready idle
  refine ⟨fun running only => ?_, fun lane running => ?_⟩
  · obtain ⟨t, ht⟩ := Option.ne_none_iff_exists'.1 running
    have expired : spacingExpired s = testFire { s with opt.spacingTimer := none } := by
      simp [spacingExpired, ht, spacingElapsed]
    obtain ⟨fires, rests⟩ := testFire_acts only
    refine ⟨fun left => ?_, fun spent => ?_⟩
    · refine ⟨_, congrArg Host.Outcome.next (happen_eq ready (expired.trans (fires left)) (by simp)), ?_, by simp⟩
      have fired := shotFired_fire k { s with opt.spacingTimer := none }
      exact ⟨fired.outstanding, fired.duty, fired.sequence, fired.spacing, fired.testActive, fired.lines, fired.kept⟩
    · refine ⟨_, congrArg Host.Outcome.next (happen_eq ready (expired.trans (rests spent)) (by simp)), ?_⟩
      simp
  · intro u only left
    obtain ⟨t, ht⟩ := Option.ne_none_iff_exists'.1 running
    set v := report { s with
      opt.dutyCount := ⟨0, 0, 0⟩
      opt.dutyTimer := some (headerDutyPeriod (activeHeader s)) } with hv
    have returns : endRest v = report { v with seq.acq := some ⟨k, .firing⟩ } := by
      have lane' : v.seq.acq = some ⟨k, .resting⟩ := by simpa [hv] using lane
      simp only [endRest, lane', if_true, setPhase]
    obtain ⟨m, hm⟩ : ∃ m, report { v with seq.acq := some ⟨k, .firing⟩ } = { u with mirror := m } := ⟨_, rfl⟩
    have hm : dutyEnded s = testFire { u with mirror := m } := by
      have ended : dutyEnded s = testFire (endRest v) := by simp only [dutyEnded, ht, hv]
      rw [ended, returns, hm]
    have left' : DutyLeft k { u with mirror := m } := by
      have zero : sourceGet (⟨0, 0, 0⟩ : Sources Nat) (recSource (activeRecord s k)) 0 = 0 := by
        unfold sourceGet
        split <;> rfl
      change sourceGet (⟨0, 0, 0⟩ : Sources Nat) (recSource (activeRecord s k)) 0 < _
      rw [zero]
      exact left
    have fires := (testFire_acts (onlyDutyStops_mirror only m)).1 left'
    exact ⟨_, congrArg Host.Outcome.next (happen_eq ready (hm.trans fires) (by simp [u])),
      shotFired_mirror (shotFired_fire k _), by simp [u]⟩

/-- Settles O50: the guard's assertion ends the run with LIVE, and its deassertion tests firing. -/
theorem liveLightActs : Obligations.LiveLightActs := by
  intro k s ready
  refine ⟨fun dark shoots comp view trace => ?_, fun live gate spacing fireReady left => ?_⟩
  · have ready' : EventReady (setLiveLight true s) := ⟨ready.running, ready.noWaiting⟩
    obtain ⟨-, rests⟩ := advance_runEnded .live shoots view comp trace (i := s.intake) { s.pins with liveLight := true }
    have shoots' : shootingSlot (setLiveLight true s) = some k := shoots
    have acts : guardAsserted (setLiveLight true s) =
        endRunOf (awaitCompare .live { s with pins := { s.pins with liveLight := true } }) := by
      simp only [guardAsserted, shoots']
      exact advance_settled rests
    have run : exec .liveLightGuardAsserted s = .next (happen guardAsserted (setLiveLight true s)) := by
      simp [exec, execLiveLightGuardAsserted, dark]
    refine ⟨_, run.trans (congrArg Host.Outcome.next (happen_eq ready' acts (by simp [setLiveLight]))),
      runEnded_of .live shoots view _ rfl, by simp⟩
  · have ready' : EventReady (setLiveLight false s) := ⟨ready.running, ready.noWaiting⟩
    have only : OnlyDutyStops k (setLiveLight false s) :=
      ⟨⟨fireReady.firing, fireReady.room, fireReady.buffer, fireReady.wanted⟩, spacing, gate, rfl⟩
    have fires := (testFire_acts only).1 left
    have run : exec .liveLightGuardDeasserted s = .next (happen testFire (setLiveLight false s)) := by
      simp [exec, execLiveLightGuardDeasserted, live]
    have fired := shotFired_fire k (setLiveLight false s)
    exact ⟨_, run.trans (congrArg Host.Outcome.next (happen_eq ready' fires (by simp))),
      ⟨fired.outstanding, fired.duty, fired.sequence, fired.spacing, fired.testActive, fired.lines, fired.kept⟩,
      by simp [setLiveLight]⟩

end Sys2Proof.Machine
end

section
/-! PROOFS. Line events and expiries that find nothing to act on, the timers' own effects, and the reset line (R26, R27,
R38, R46 to R59, R178; log entry 3). -/

namespace Sys2Proof.Machine

/-! ### Lines with nothing to act on -/

/-- A line's event that moves the level alone. -/
theorem happen_level {s u : State} {f : State → State} (ready : EventReady s) (hu : f u = u)
    (he : u = { s with pins := u.pins }) (hr : u.pins.resetAsserted = s.pins.resetAsserted) : happen f u = report u := by
  have waiting : u.path.waiting = s.path.waiting := by rw [he]
  exact happen_eq ⟨hr.trans ready.running, waiting.trans ready.noWaiting⟩ hu rfl

/-- Settles O51: each event's test fails, so the level alone moves. -/
theorem linesElsewhere : Obligations.LinesElsewhere := by
  intro s ready settled
  have rests (p : PinState) : Settled { s with pins := p } := settled_of settled rfl rfl rfl
  refine ⟨fun gate st phase => ?_, fun gate quiet => ?_, fun live none => ?_, fun live phase => ?_, fun e counts => ?_,
    fun h => ?_, fun h => ?_, fun h => ?_, fun h => ?_⟩
  · have acts : gateAsserted (setGate true s) = setGate true s := by
      have waits : waitingTest (setGate true s) = setGate true s := if_neg fun h => st h.1
      rw [gateAsserted, waits, testFire_none (s := setGate true s) phase]
      exact advance_settled (rests _)
    have run : exec .quietHoursGateAsserted s = .next (happen gateAsserted (setGate true s)) := by
      simp [exec, execQuietHoursGateAsserted, gate]
    exact run.trans (congrArg Host.Outcome.next (happen_level ready acts rfl rfl))
  · have acts : gateDeasserted (setGate false s) = setGate false s := by
      refine if_neg ?_
      rintro ⟨st, clear⟩
      rw [show (setGate false s).seq.quietEnd = true from quiet st] at clear
      cases clear
    have run : exec .quietHoursGateDeasserted s = .next (happen gateDeasserted (setGate false s)) := by
      simp [exec, execQuietHoursGateDeasserted, gate]
    exact run.trans (congrArg Host.Outcome.next (happen_level ready acts rfl rfl))
  · have acts : guardAsserted (setLiveLight true s) = setLiveLight true s := by
      have none' : shootingSlot (setLiveLight true s) = Option.none := none
      simp only [guardAsserted, none']
    have run : exec .liveLightGuardAsserted s = .next (happen guardAsserted (setLiveLight true s)) := by
      simp [exec, execLiveLightGuardAsserted, live]
    exact run.trans (congrArg Host.Outcome.next (happen_level ready acts rfl rfl))
  · have acts : testFire (setLiveLight false s) = setLiveLight false s := testFire_none phase
    have run : exec .liveLightGuardDeasserted s = .next (happen testFire (setLiveLight false s)) := by
      simp [exec, execLiveLightGuardDeasserted, live]
    exact run.trans (congrArg Host.Outcome.next (happen_level ready acts rfl rfl))
  · have acts : edgeTaken e (setTrigger e s) = setTrigger e s := by
      refine if_neg ?_
      rintro ⟨sense, starts⟩
      simp only [triggerCounts, Bool.and_eq_true, decide_eq_true_eq] at starts
      obtain ⟨⟨st, mode⟩, gate⟩ := starts
      exact counts st mode gate sense
    exact congrArg Host.Outcome.next (happen_level ready acts rfl rfl)
  all_goals
    simp only [exec, execQuietHoursGateAsserted, execQuietHoursGateDeasserted, execLiveLightGuardAsserted,
      execLiveLightGuardDeasserted, h]
    rfl

/-! ### Timers -/

/-- Settles O53: each expiry moves its own timer's state, and a timer that does not run has none. -/
theorem timersExpire : Obligations.TimersExpire := by
  intro s ready settled
  have done {f : State → State} {u : State} (hu : f s = u) (hw : u.path.waiting = s.path.waiting) :
      Host.Outcome.next (happen f s) = (.next (report u) : Host.Outcome State Fault Refusal) :=
    congrArg Host.Outcome.next (happen_eq ready hu hw)
  refine ⟨fun warming running => ?_, fun unsettled w running => ?_, fun w running => ?_, fun held running => ?_,
    fun held rests running => ?_, fun h => ?_, fun h => ?_, fun h => ?_, fun h => ?_, fun h => ?_⟩
  · obtain ⟨t, ht⟩ := Option.ne_none_iff_exists'.1 running
    set u : State := { s with opt.settled := true, opt.settleTimer := none } with hu
    have waits : settlingTest u = u := settlingTest_waits fun k lane _ => warming k lane
    have expired : settleExpired s = u := by
      simp only [settleExpired, ht]
      rw [← hu, waits]
      exact advance_settled (settled_of settled rfl rfl rfl)
    exact done expired rfl
  · set u : State := { s with opt.warm := sourceSet s.opt.warm w.source .warm, opt.warmUpTimer := none } with hu
    have waits : settlingTest u = u := settlingTest_waits fun k lane done => by
      rw [show u.opt.settled = false from unsettled k lane] at done
      cases done
    have expired : warmUpExpired s = u := by
      simp only [warmUpExpired, running]
      rw [← hu, waits]
      exact advance_settled (settled_of settled rfl rfl rfl)
    refine ⟨_, done expired rfl, rfl, fun j hj => ?_, rfl⟩
    have set := sourceState_set (s := s) (t := report u) (source := w.source) (a := .warm) rfl j
    rw [set]
    exact if_congr (and_iff_left hj) rfl rfl
  · set u := coldSource w.source s with hu
    have expired : warmHoldExpired s = u := by simp only [warmHoldExpired, running, hu]
    have timer : u.opt.warmHoldTimer = none := by simp [hu, coldSource, running, stopFor]
    refine ⟨_, done expired rfl, timer, fun j => ?_, ?_⟩
    · rw [sourceState_set (s := s) (t := report u) (source := w.source) (a := .cold) rfl j]
      by_cases hj : j < 3
      · exact if_congr (and_iff_left hj) rfl rfl
      · have cold : sourceState s j = .cold := by
          unfold sourceState
          split <;> simp_all
        rw [if_neg fun h => hj h.2, cold, ite_self]
    · refine Eq.trans ?_ (congrArg (fun t => { s with
        opt := { s.opt with warm := u.opt.warm, warmUpTimer := u.opt.warmUpTimer, warmHoldTimer := t }
        mirror := (report u).mirror }) timer)
      rfl
  · obtain ⟨t, ht⟩ := Option.ne_none_iff_exists'.1 running
    set u : State := { s with opt.spacingTimer := none } with hu
    have waits : testFire u = u := testFire_held fun k only => by
      obtain ⟨fireReady, -, gate, live⟩ := only
      obtain h | h := held k ⟨fireReady.firing, fireReady.room, fireReady.buffer, fireReady.wanted⟩
      · rw [show u.pins.gate = false from h] at gate
        cases gate
      · rw [show u.pins.liveLight = true from h] at live
        cases live
    have expired : spacingExpired s = u := by
      simp only [spacingExpired, ht]
      exact waits
    exact done expired rfl
  · obtain ⟨t, ht⟩ := Option.ne_none_iff_exists'.1 running
    set u : State := { s with
      opt.dutyCount := ⟨0, 0, 0⟩
      opt.dutyTimer := some (headerDutyPeriod (activeHeader s)) } with hu
    have stays : endRest (report u) = report u := by
      have lane : (report u).seq.acq = s.seq.acq := by simp [hu]
      unfold endRest
      rw [lane]
      split
      · exact if_neg (rests _ ‹_›)
      · rfl
    have waits : testFire (report u) = report u := testFire_held fun k only => by
      obtain ⟨fireReady, spacing, gate, live⟩ := only
      obtain h | h | h := held k ⟨fireReady.firing, fireReady.room, fireReady.buffer, fireReady.wanted⟩
      · exact h spacing
      · rw [show (report u).pins.gate = false from h] at gate
        cases gate
      · rw [show (report u).pins.liveLight = true from h] at live
        cases live
    have expired : dutyEnded s = report u := by
      simp only [dutyEnded, ht]
      rw [← hu, stays, waits]
    have run := done (f := dutyEnded) expired rfl
    rw [report_report] at run
    exact run
  · exact done (f := settleExpired) (by simp only [settleExpired, h]) rfl
  · exact done (f := warmUpExpired) (by simp only [warmUpExpired, h]) rfl
  · exact done (f := warmHoldExpired) (by simp only [warmHoldExpired, h]) rfl
  · exact done (f := spacingExpired) (by simp only [spacingExpired, h]) rfl
  · exact done (f := dutyEnded) (by simp only [dutyEnded, h]) rfl

/-! ### The reset line (R178) -/

/-- Settles O52: the reset values are read off the state a hard reset leaves. -/
theorem resetLine : Obligations.ResetLine := by
  intro s
  refine ⟨⟨hardReset s, rfl, ⟨rfl, rfl, rfl, rfl⟩, ?_, rfl, rfl, rfl, ?_, rfl, rfl, rfl, rfl, rfl, rfl, fun i => ⟨?_, ?_⟩,
    rfl, rfl, rfl, rfl⟩, fun held waiting => ?_⟩
  · have header : activeHeader (hardReset s) = PlanCopy.reset.header := rfl
    have hold : holdFlag (hardReset s) = headerHold PlanCopy.reset.header := rfl
    rw [header, hold]
    decide
  · change testActiveLine State.reset = false
    decide
  · simp [hardReset, State.reset, MirrorState.reset]
  · have shown : (hardReset s).mirror.image = _ := mirrored_hardReset s
    rw [shown]
    simp
  · have run : exec .resetDeasserted s = .next (happen id { s with pins.resetAsserted := false }) := by
      simp [exec, execResetDeasserted, held]
    exact run.trans (congrArg Host.Outcome.next (happen_eq ⟨rfl, waiting⟩ rfl rfl))

end Sys2Proof.Machine
end

section
/-! PROOFS. View reads taken up: the point in progress, the codes, the lock and the first word (R158 to R163). -/

namespace Sys2Proof.Machine

/-! ### What a read is answered with where no word is needed (R160, R161) -/

/-- The word of a read beyond the output count, by format (R160, R161). -/
def beyondCode : ViewFormat → Word
  | .linear => 0
  | .level => 0x80000001
  | .deviation => 0x80000000
  | .packed => 0x80008000

/-- The word of a read at an accepted count of 0, by format (R160, R161). -/
def emptyCode : ViewFormat → Word
  | .linear => 0
  | .level => 0x80000001
  | .deviation => 0x80000001
  | .packed => 0x80008000

/-- A read beyond the output count is answered with its format's code. -/
theorem formWord_beyond {f : ViewFields} {j : Nat} (h : ∀ p ∈ outputPoints f j, f.count ≤ p) (shots : Nat)
    (ws : List Word) : formWord f j shots ws = (beyondCode f.format, false) := by
  unfold outputPoints at h
  cases hf : f.format
  all_goals
    rw [hf] at h
    simp only [List.mem_cons, List.not_mem_nil, or_false, forall_eq_or_imp, forall_eq] at h
  · simp [formWord, plainValue, hf, Nat.not_lt.2 h, beyondCode]
  · simp [formWord, plainValue, hf, Nat.not_lt.2 h, beyondCode, noLightCode]
  · simp [formWord, deviationValue, hf, Nat.not_lt.2 h, beyondCode, absentCode]
  · simp [formWord, packedHalf, hf, Nat.not_lt.2 h.1, Nat.not_lt.2 h.2, beyondCode]

/-- A read at an accepted count of 0 is answered with its format's code, where an output point is within the count. -/
theorem formWord_empty {f : ViewFields} {j : Nat} (h : ¬ ∀ p ∈ outputPoints f j, f.count ≤ p) (ws : List Word) :
    formWord f j 0 ws = (emptyCode f.format, false) := by
  unfold outputPoints at h
  cases hf : f.format
  all_goals
    rw [hf] at h
  · simp [formWord, plainValue, hf, emptyCode]
  · simp [formWord, plainValue, hf, emptyCode, noLightCode]
  · have within : j < f.count := by simpa using h
    simp [formWord, deviationValue, hf, within, emptyCode, noLightCode]
  · simp [formWord, packedHalf, hf, emptyCode]

/-! ### The words of a read (R158, R159) -/

/-- A read needs no point just where its output points lie beyond the output count. -/
theorem pointsBelow_nil (f : ViewFields) (j : Nat) :
    pointsBelow f j = [] ↔ ∀ p ∈ outputPoints f j, f.count ≤ p := by
  simp [pointsBelow, List.filter_eq_nil_iff]

/-- The view bin is at least 1 (R158). -/
theorem headerViewBin_pos (h : Vector Word 32) : 0 < headerViewBin h := by
  unfold headerViewBin
  dsimp only
  split_ifs <;> decide

/-- A read within the output count fetches a word. -/
theorem fetchPlan_ne_nil {f : ViewFields} {j : Nat} (bin : 0 < f.bin) (h : pointsBelow f j ≠ []) :
    fetchPlan f j ≠ [] := by
  obtain ⟨p, rest, hp⟩ := List.exists_cons_of_ne_nil h
  unfold fetchPlan
  rw [hp]
  cases f.format <;> simp [Nat.ne_of_gt bin]

/-- Words in trace memory are not taken beforehand (R159). -/
theorem fillBeyond_memory {plan : List (Nat × Word)} (h : ∀ w ∈ plan, w.1 < 0x1000000) (ws : List Word) :
    fillBeyond plan ws = ws := by
  cases plan with
  | nil => rfl
  | cons w rest =>
    obtain ⟨a, d⟩ := w
    exact if_pos (h (a, d) (by simp))

/-- The word a view read addresses (R159). -/
theorem viewWord_viewAddress (offset : BitVec 16) (be : Enables) :
    viewWord ⟨viewAddress offset, false, be, 0⟩ = offset.toNat / 4 := by
  have := offset.isLt
  simp only [viewWord, viewAddress, BitVec.toNat_add, BitVec.toNat_setWidth, BitVec.toNat_ofNat]
  omega

/-- A release with no record waiting for its add is the lock's alone (R86, R89). -/
theorem releaseByView_empty {k : SlotIx} {s : State} (h : s.accum.queue = []) :
    releaseByView k s = { s with accum.lock := s.accum.lock.set k .free } := by
  unfold releaseByView testAdd
  split
  · next rest hq => cases h.symm.trans hq
  · rfl

/-- Settles O44: by the background operation, the output count, the lock and the accepted count. -/
theorem viewReadTaken : Obligations.ViewReadTaken := by
  intro offset be s ready access f j beyond
  have word : viewWord access = j := viewWord_viewAddress offset be
  have arrives : exec (.viewRead offset be) s = .next (report (arriveView access s)) :=
    congrArg Host.Outcome.next (present_viewRead ready offset be)
  refine ⟨fun b bg trace => ?_, fun bg on => ?_⟩
  · set u : State := { s with trace.view := some ⟨access, .waitPoint b.point⟩ } with hu
    have running : runningOperation u = some b := by simp [runningOperation, hu, bg]
    have idle : TraceIdle u := by
      refine ⟨fun b' hb' => ?_, fun none => ?_⟩
      · rw [running] at hb'
        cases hb'
        exact trace b bg
      · rw [running] at none
        cases none
    have arrived : arriveView access s = u := by
      unfold arriveView
      split
      · next b' hb =>
        cases bg.symm.trans hb
        exact runTrace_idle idle
      · next hb => cases bg.symm.trans hb
    rw [arrived] at arrives
    refine ⟨_, arrives, rfl, ?_⟩
    simpa [traceStands, runningOperation] using congrArg Option.isSome running
  · have taken : arriveView access s = if pointsBelow f j = [] then answerView (formWord f j 0 []) s
        else if s.accum.lock[f.slot] = .free then lockView access f s
        else { s with trace.view := some ⟨access, .waitLock f⟩ } := by
      rw [arriveView_noBackground bg, takeUpView, if_neg on, word]
    rw [taken] at arrives
    refine ⟨fun hb => ?_, fun hb locked => ?_, fun hb free none queue => ?_, fun hb free some memory => ?_⟩
    · rw [arrives, if_pos ((pointsBelow_nil f j).2 hb), formWord_beyond hb, answerView_exact ready.noView]
      cases f.format <;> rfl
    · rw [arrives, if_neg fun h => hb ((pointsBelow_nil f j).1 h), if_neg locked]
    · have released : releaseByView f.slot (setLock f.slot .viewing s) = s := by
        have same : (s.accum.lock.set f.slot .viewing).set f.slot .free = s.accum.lock := by
          refine Vector.ext fun i hi => ?_
          by_cases h : f.slot.val = i
          · subst h
            simpa using free.symm
          · simp [h]
        unfold setLock
        rw [releaseByView_empty (by exact queue)]
        dsimp only
        rw [same]
      rw [arrives, if_neg fun h => hb ((pointsBelow_nil f j).1 h), if_pos free, lockView]
      dsimp only
      rw [if_pos none, word, formWord_empty hb, released, answerView_exact ready.noView]
      cases f.format <;> rfl
    · have plan : fetchPlan f j ≠ [] :=
        fetchPlan_ne_nil (headerViewBin_pos _) fun h => hb ((pointsBelow_nil f j).1 h)
      rw [arrives, if_neg fun h => hb ((pointsBelow_nil f j).1 h), if_pos free, lockView]
      dsimp only
      rw [if_neg some, advanceView]
      dsimp only
      rw [word, List.length_nil, List.drop_zero, fillBeyond_memory memory, List.length_nil,
        if_neg (show ¬ (0 < accWords f j ∧ accWords f j ≤ 0) by omega),
        if_neg (show ¬ (fetchPlan f j).length ≤ 0 by simpa using plan)]
      rfl

end Sys2Proof.Machine
end

section
/-! PROOFS. A VIEW FETCH grant: the words of a held read in their order, the lock's release, and the answer in each
format (O45). -/

namespace Sys2Proof.Machine

/-! ### The conversions of a view read (R106, R107, R160, R161) -/

/-- The LINEAR value and its clamp, by the light sum (R106, R108). -/
theorem linearValue_eq (d : Int) (b : Nat) {shots : Nat} (some : shots ≠ 0) :
    linearValue d b shots = (if d ≤ 0 then 0 else min 2147483647 (16 * d / (b * shots : Nat)),
      decide (0 < d ∧ 2147483647 < 16 * d / (b * shots : Nat))) := by
  unfold linearValue
  by_cases dark : d ≤ 0
  · simp [dark, Int.not_lt.2 dark]
  · have lit : 0 < d := Int.not_le.1 dark
    rw [if_neg (by simp [dark, some]), if_neg dark]
    dsimp only
    by_cases clamps : (2147483647 : Int) < 16 * d / (b * shots : Nat)
    · simp only [gt_iff_lt, clamps, if_true, lit, and_self, decide_true, Prod.mk.injEq, and_true]
      omega
    · simp only [gt_iff_lt, clamps, if_false, and_false, decide_false, Prod.mk.injEq, and_true]
      omega

/-- Rounding to the nearest with halves to even, by the last digit (R107). -/
theorem centiLevel_eq (l : Int) (towardZero : Bool) : centiLevel l towardZero =
    if towardZero then l.tdiv 10 else if l % 10 = 5 then 2 * ((l / 10 + 1) / 2) else (l + 5) / 10 := by
  unfold centiLevel
  cases towardZero with
  | true => rfl
  | false => simp only [Bool.false_eq_true, if_false]; grind

/-- The PACKED value is the level in centi-dB clamped to its half word (R107, R108). -/
theorem packedValue_eq (l : Int) (towardZero : Bool) : packedValue l towardZero =
    (max (-32767) (min 32767 (centiLevel l towardZero)),
      decide (centiLevel l towardZero < -32767 ∨ 32767 < centiLevel l towardZero)) := by
  unfold packedValue
  dsimp only
  split_ifs <;> simp only [Prod.mk.injEq, eq_comm (a := true), eq_comm (a := false), decide_eq_true_eq,
    decide_eq_false_iff_not] <;> omega

/-- One half of a PACKED word, by whether its output point is lit (R107, R160). -/
theorem packedHalf_eq (f : ViewFields) (p : Nat) {shots : Nat} (some : shots ≠ 0) (ws : List Word) :
    packedHalf f p shots ws =
      let d := lightSum (sumWords ws) f.bin f.dark shots
      let c := centiLevel (level d.toNat f.bin shots) f.towardZero
      (if p < f.count ∧ 0 < d then max (-32767) (min 32767 c) else -32768,
        decide ((p < f.count ∧ 0 < d) ∧ (c < -32767 ∨ 32767 < c))) := by
  unfold packedHalf
  dsimp only
  by_cases lit : p < f.count ∧ 0 < lightSum (sumWords ws) f.bin f.dark shots
  · rw [if_pos ⟨lit.1, some, lit.2⟩, packedValue_eq, if_pos lit]
    simp [lit]
  · rw [if_neg fun h => lit ⟨h.1, h.2.2⟩, if_neg lit]
    simp only [lit, false_and, decide_false]

/-- The DEVIATION of an output point that has light sum and baseline of its own (R98, R99, R161). -/
theorem deviationValue_eq (f : ViewFields) {p shots : Nat} (below : p < f.count) (some : shots ≠ 0)
    (acc base : Word) : deviationValue f p shots acc base =
      let d := lightSum acc.toNat 1 f.dark shots
      let v : Int := level d.toNat 1 shots - base.toInt
      (if base.toInt = -2147483648 then -2147483648 else if d ≤ 0 then -2147483647
        else max (-2147483646) (min 2147483647 v),
        decide ((base.toInt ≠ -2147483648 ∧ 0 < d) ∧ (v < -2147483646 ∨ 2147483647 < v))) := by
  unfold deviationValue
  dsimp only
  rw [if_neg (not_not.2 below), if_neg some]
  by_cases absent : base.toInt = -2147483648
  · simp [absent, absentCode]
  · by_cases dark : lightSum acc.toNat 1 f.dark shots ≤ 0
    · simp [absent, absentCode, dark, noLightCode, Int.not_lt.2 dark]
    · have lit : 0 < lightSum acc.toNat 1 f.dark shots := Int.not_le.1 dark
      rw [if_neg (show ¬ base.toInt = absentCode from absent), if_neg dark, if_neg absent, if_neg dark]
      simp only [clampMagnitude, Prod.mk.injEq, true_and, ne_eq, absent, not_false_eq_true, lit, and_self]
      rw [Bool.eq_iff_iff, bne_iff_ne, decide_eq_true_iff]
      omega

/-! ### The words of a read, by format (R159, R162) -/

/-- A word of more than a half is fetched only for an output point below the output count. -/
theorem pointsBelow_single {f : ViewFields} {j : Nat} (h : f.format ≠ .packed) (some : pointsBelow f j ≠ []) :
    j < f.count ∧ pointsBelow f j = [j] := by
  have points : outputPoints f j = [j] := by
    unfold outputPoints
    split
    · next packed => exact absurd packed h
    · rfl
  have below : j < f.count := by
    by_contra beyond
    exact some ((pointsBelow_nil f j).2 fun p hp => by
      rw [points, List.mem_singleton] at hp
      omega)
  exact ⟨below, by simp [pointsBelow, points, below]⟩

/-- A read that fetches has an output point below the output count. -/
theorem pointsBelow_of_fetch {f : ViewFields} {j : Nat} (h : fetchPlan f j ≠ []) : pointsBelow f j ≠ [] := by
  intro none
  apply h
  unfold fetchPlan
  rw [none]
  cases f.format <;> rfl

/-- No more words are accumulator words than are fetched. -/
theorem accWords_le (f : ViewFields) (j : Nat) : accWords f j ≤ (fetchPlan f j).length := by
  unfold accWords fetchPlan
  cases f.format
  case deviation => simp; omega
  all_goals exact Nat.le_refl _

/-- Without baseline words all are accumulator words. -/
theorem accWords_eq {f : ViewFields} (h : f.format ≠ .deviation) (j : Nat) :
    accWords f j = (fetchPlan f j).length := by
  unfold accWords
  split
  · next deviation => exact absurd deviation h
  · rfl

/-- A LINEAR or LEVEL read fetches the words of one bin (R159). -/
theorem fetchPlan_bin {f : ViewFields} {j : Nat} (h : f.format = .linear ∨ f.format = .level)
    (some : fetchPlan f j ≠ []) :
    j < f.count ∧ (fetchPlan f j).length = f.bin ∧ accWords f j = (fetchPlan f j).length := by
  obtain ⟨below, points⟩ := pointsBelow_single (by rcases h with h | h <;> simp [h]) (pointsBelow_of_fetch some)
  refine ⟨below, ?_, accWords_eq (by rcases h with h | h <;> simp [h]) j⟩
  unfold fetchPlan
  rcases h with h | h <;> simp [h, points]

/-- A DEVIATION read fetches an accumulator word and a baseline word (R159). -/
theorem fetchPlan_deviation {f : ViewFields} {j : Nat} (h : f.format = .deviation) (some : fetchPlan f j ≠ []) :
    j < f.count ∧ (fetchPlan f j).length = 2 ∧ accWords f j = 1 := by
  obtain ⟨below, points⟩ := pointsBelow_single (by simp [h]) (pointsBelow_of_fetch some)
  unfold accWords fetchPlan
  simp [h, points, below]

/-! ### A word granted (R162) -/

/-- A read whose words lie in trace memory goes on with the words it has (R162). -/
theorem advanceView_memory {a : Access} {f : ViewFields} (memory : ∀ w ∈ fetchPlan f (viewWord a), w.1 < 0x1000000)
    (shots had : Nat) (words : List Word) (s : State) :
    advanceView a f shots had words s =
      let j := viewWord a
      let s1 := { s with trace.view := some ⟨a, .fetching f shots words⟩ }
      let s2 := if had < accWords f j ∧ accWords f j ≤ words.length then releaseByView f.slot s1 else s1
      if (fetchPlan f j).length ≤ words.length then answerView (formWord f j shots words) s2 else s2 := by
  unfold advanceView
  dsimp only
  rw [fillBeyond_memory fun w hw => memory w (List.mem_of_mem_drop hw)]

section
variable {a : Access} {f : ViewFields} {shots count : Nat} {words : List Word} {s : State} {addr : Nat} {dflt : Word}
  (ready : EventReady s) (held : s.trace.view = some ⟨a, .fetching f shots words⟩)
  (wins : decision s = some (.viewFetch, count))
  (word : (fetchPlan f (viewWord a))[words.length]? = some (addr, dflt))
  (memory : ∀ w ∈ fetchPlan f (viewWord a), w.1 < 0x1000000)

include ready held wins word

/-- The granted word joins the read's words, and the Trace Engine runs on (R162). -/
theorem exec_viewFetchGrant {u : State}
    (goes : advanceView a f shots words.length (words ++ [readWord s.mem addr]) { s with path.passCount := count } = u)
    (idle : TraceIdle u) (waiting : u.path.waiting = s.path.waiting) : exec .viewFetchGrant s = .next (report u) := by
  refine congrArg Host.Outcome.next (happen_granted ready wins ?_ waiting)
  have taken : viewWordGranted { s with path.passCount := count } = u := by
    unfold viewWordGranted
    dsimp only
    rw [held]
    dsimp only
    rw [word]
    exact goes
  rw [viewFetchGranted, taken, runTrace_idle idle]

include memory

/-- A word that is neither the last accumulator word nor the last word is kept (R162). -/
theorem viewFetch_keeps (more : words.length + 1 < accWords f (viewWord a)) :
    exec .viewFetchGrant s = .next (report { s with
      path.passCount := count
      trace.view := some ⟨a, .fetching f shots (words ++ [readWord s.mem addr])⟩ }) := by
  refine exec_viewFetchGrant ready held wins word ?_ (idle_view rfl (by simp)) rfl
  have := accWords_le f (viewWord a)
  rw [advanceView_memory memory]
  dsimp only
  rw [List.length_append, List.length_singleton, if_neg (by omega), if_neg (by omega)]

/-- The last accumulator word with a baseline word still to come releases the lock (R162). -/
theorem viewFetch_releases (last : words.length + 1 = accWords f (viewWord a))
    (more : words.length + 1 < (fetchPlan f (viewWord a)).length) (queue : s.accum.queue = []) :
    exec .viewFetchGrant s = .next (report { s with
      path.passCount := count
      accum.lock := s.accum.lock.set f.slot .free
      trace.view := some ⟨a, .fetching f shots (words ++ [readWord s.mem addr])⟩ }) := by
  refine exec_viewFetchGrant ready held wins word ?_ (idle_view rfl (by simp)) rfl
  rw [advanceView_memory memory]
  dsimp only
  rw [List.length_append, List.length_singleton, if_neg (by omega),
    if_pos (show words.length < accWords f (viewWord a) ∧ accWords f (viewWord a) ≤ words.length + 1 by omega),
    releaseByView_empty]
  exact queue

/-- The last word answers the read, releasing the lock where it is an accumulator word (R162). -/
theorem viewFetch_answers (settled : TraceSettled s)
    (last : words.length + 1 = (fetchPlan f (viewWord a)).length) (queue : s.accum.queue = [])
    {data : Word} {clamped : Bool}
    (forms : formWord f (viewWord a) shots (words ++ [readWord s.mem addr]) = (data, clamped))
    {lock : LockState} (hl : lock = if words.length < accWords f (viewWord a) then .free else s.accum.lock[f.slot]) :
    exec .viewFetchGrant s = .next (report { s with
      path.passCount := count
      path.readData := data
      accum.lock := s.accum.lock.set f.slot lock
      trace.view := none
      trace.squeezed := s.trace.squeezed || clamped }) := by
  refine exec_viewFetchGrant ready held wins word ?_ (idle_of rfl settled) rfl
  have := accWords_le f (viewWord a)
  rw [advanceView_memory memory]
  dsimp only
  rw [List.length_append, List.length_singleton, if_pos (show _ ≤ words.length + 1 by omega), forms, hl]
  by_cases acc : words.length < accWords f (viewWord a)
  · rw [if_pos (by omega), if_pos acc, releaseByView_empty]
    · rfl
    · exact queue
  · rw [if_neg (by omega), if_neg acc]
    have same : s.accum.lock.set f.slot s.accum.lock[f.slot] = s.accum.lock := Vector.set_getElem_self _
    rw [same]
    rfl

end

/-- Settles O45: by the number of words, then format by format. -/
theorem viewFetchGranted_holds : Obligations.ViewFetchGranted := by
  intro a f shots count words s ready settled held wins memory addr dflt word j w got light answers
  have within : words.length < (fetchPlan f (viewWord a)).length := (List.getElem?_eq_some_iff.1 word).1
  have fetches : fetchPlan f (viewWord a) ≠ [] := List.ne_nil_of_length_pos (by omega)
  refine ⟨viewFetch_keeps ready held wins word memory, ?_, ?_, ?_, ?_, ?_⟩
  · intro format last d v some queue
    obtain ⟨below, len, acc⟩ := fetchPlan_bin (.inl format) fetches
    refine viewFetch_answers ready held wins word memory settled (by omega) queue ?_ (if_pos (by omega)).symm
    have some : shots ≠ 0 := by omega
    simp only [formWord, format, plainValue]
    rw [if_pos ⟨below, some⟩, linearValue_eq _ _ some]
    rfl
  · intro format last d some queue
    obtain ⟨below, len, acc⟩ := fetchPlan_bin (.inr format) fetches
    refine viewFetch_answers ready held wins word memory settled (by omega) queue ?_ (if_pos (by omega)).symm
    have some : shots ≠ 0 := by omega
    have sum : lightSum (sumWords (words ++ [readWord s.mem addr])) f.bin f.dark shots = d := rfl
    simp only [formWord, format, plainValue, sum]
    by_cases dark : d ≤ 0
    · rw [if_neg fun h => Int.not_lt.2 dark h.2.2, if_pos dark]
      rfl
    · rw [if_pos ⟨below, some, Int.not_le.1 dark⟩, if_neg dark]
  · intro format last centi lit exact half clamps some queue
    have some : shots ≠ 0 := by omega
    refine viewFetch_answers ready held wins word memory settled last queue ?_ (if_pos ?_).symm
    · simp only [formWord, format, packedHalf_eq _ _ some, ← Bool.decide_or, centiLevel_eq]
      rfl
    · rw [accWords_eq (by simp [format])]
      omega
  · intro format none queue
    obtain ⟨below, len, acc⟩ := fetchPlan_deviation format fetches
    exact viewFetch_releases ready held wins word memory (by simp [none, acc]) (by simp [none, len]) queue
  · intro format first one d v judged some queue
    obtain ⟨below, len, acc⟩ := fetchPlan_deviation format fetches
    refine viewFetch_answers ready held wins word memory settled (by simp [one, len]) queue ?_
      (if_neg (by simp [one, acc])).symm
    have some : shots ≠ 0 := by omega
    simp only [formWord, format, one, deviationValue_eq f below some]
    rfl

end Sys2Proof.Machine
end

section
/-! PROOFS. An ACCUM grant: the read and the write of an add's point, and the add's completion (O39). -/

namespace Sys2Proof.Machine

/-! ### The word an add writes (R87) -/

/-- A sample is a half word. -/
theorem sampleAt_lt (samples : List Word) (point : Nat) : sampleAt samples point < 65536 := by
  unfold sampleAt field
  omega

/-- In WRITE mode the sample is written. -/
theorem addWord_sample {s : State} {a : AddState} (h : a.read = none) :
    (addWord s a).toNat = sampleAt (bufferSamples s a.buffer) a.point := by
  have := sampleAt_lt (bufferSamples s a.buffer) a.point
  simp only [addWord, h, BitVec.toNat_ofNat]
  omega

/-- In ADD mode the sum is written, stopped at the cap. -/
theorem addWord_sum {s : State} {a : AddState} {old : Word} (h : a.read = some old) :
    (addWord s a).toNat = min 4294967295 (old.toNat + sampleAt (bufferSamples s a.buffer) a.point) := by
  simp only [addWord, h, saturatingAdd, BitVec.toNat_ofNat]
  omega

/-! ### The end of an add (R78, R88, R90) -/

/-- Steps 1 and 2 of a completion. -/
theorem countAdd_eq (a : AddState) (s : State) : countAdd a s = { s with
    accum.add := none
    accum.clippedContent := s.accum.clippedContent.set a.slot (s.accum.clippedContent[a.slot] || a.clipped)
    intake := (setBuffer a.buffer .free { s with
      intake.accepted := s.intake.accepted.set a.slot (s.intake.accepted[a.slot] + 1) }).intake } := by
  unfold countAdd
  cases a.buffer <;> rfl

/-- The accepted counts stand apart from the staging buffers. -/
theorem setBuffer_accepted (i : BufIx) (b : Buffer) (s : State) :
    (setBuffer i b s).intake.accepted = s.intake.accepted := by
  cases i <;> rfl

/-- What a staging buffer's state leaves of Shot Intake, by Shot Intake alone. -/
theorem setBuffer_intake {s t : State} (h : s.intake = t.intake) (i : BufIx) (b : Buffer) :
    (setBuffer i b s).intake = (setBuffer i b t).intake := by
  cases i <;> simp [setBuffer, h]

/-- An add releases its lock with no record and no view read waiting (R88, R89). -/
theorem releaseByAdd_alone {k : SlotIx} {s : State} (view : s.trace.view = none) (queue : s.accum.queue = []) :
    releaseByAdd k s = { s with accum.lock := s.accum.lock.set k .free } := by
  unfold releaseByAdd setLock testAdd
  simp only [view]
  split
  · next rest hq => cases queue.symm.trans hq
  · rfl

/-- The add that reaches the shot target sets the ready flag, and its slot waits to be compared (R31, R90). -/
theorem targetTest_reached {k : SlotIx} {s : State} (h : s.intake.accepted[k] = recTarget (activeRecord s k))
    (shoots : shootingSlot s = some k) : targetTest k s = { s with
      accum.ready := s.accum.ready.set k true
      seq.acq := some ⟨k, .awaiting .accumulation⟩
      opt.spacingTimer := none } := by
  obtain ⟨st, phase, lane, -⟩ := shooting_lane shoots
  have still : shootingSlot (setReady k true s) = some k := shoots
  unfold targetTest
  rw [if_pos h]
  dsimp only
  rw [if_pos still, awaitCompare_eq (s := setReady k true s) lane]
  rfl

/-- Below the shot target the firing conditions are tested, and the spacing holds the slot (R57). -/
theorem targetTest_spaced {k : SlotIx} {s : State} (h : s.intake.accepted[k] ≠ recTarget (activeRecord s k))
    (spaced : Spaced s) : targetTest k s = s := by
  rw [targetTest, if_neg h, testFire_spaced spaced]

/-- A completion with no record and no view read waiting, by the test of the shot target (R88). -/
theorem completeAdd_alone {a : AddState} {s u : State} (view : s.trace.view = none) (queue : s.accum.queue = [])
    (tested : targetTest a.slot (countAdd a s) = u)
    (kept : u.trace.view = s.trace.view ∧ u.accum.queue = s.accum.queue) :
    completeAdd a s = { u with accum.lock := u.accum.lock.set a.slot .free } := by
  obtain ⟨hview, hqueue⟩ := kept
  rw [completeAdd, tested, releaseByAdd_alone (hview.trans view) (hqueue.trans queue)]

/-- The add that reaches the shot target completes (R88, R90). -/
theorem completeAdd_reached {a : AddState} {s : State} (view : s.trace.view = none) (queue : s.accum.queue = [])
    (shoots : shootingSlot s = some a.slot)
    (reached : s.intake.accepted[a.slot] + 1 = recTarget (activeRecord s a.slot)) :
    completeAdd a s = { countAdd a s with
      accum.ready := s.accum.ready.set a.slot true
      accum.lock := s.accum.lock.set a.slot .free
      seq.acq := some ⟨a.slot, .awaiting .accumulation⟩
      opt.spacingTimer := none } := by
  have shooting : shootingSlot (countAdd a s) = some a.slot := by rw [countAdd_eq]; exact shoots
  have counted : (countAdd a s).intake.accepted[a.slot] = recTarget (activeRecord (countAdd a s) a.slot) := by
    rw [countAdd_eq]
    simpa [setBuffer_accepted, activeRecord] using reached
  rw [completeAdd_alone view queue (targetTest_reached counted shooting) (by rw [countAdd_eq]; exact ⟨rfl, rfl⟩),
    countAdd_eq]

/-- The add below the shot target completes, its slot held by the shot spacing (R57, R88). -/
theorem completeAdd_below {a : AddState} {s : State} (view : s.trace.view = none) (queue : s.accum.queue = [])
    (spaced : Spaced s) (below : s.intake.accepted[a.slot] + 1 ≠ recTarget (activeRecord s a.slot)) :
    completeAdd a s = { countAdd a s with accum.lock := s.accum.lock.set a.slot .free } := by
  have counted : (countAdd a s).intake.accepted[a.slot] ≠ recTarget (activeRecord (countAdd a s) a.slot) := by
    rw [countAdd_eq]
    simpa [setBuffer_accepted, activeRecord] using below
  have spaced : Spaced (countAdd a s) := by rw [countAdd_eq]; exact spaced
  rw [completeAdd_alone view queue (targetTest_spaced counted spaced) (by rw [countAdd_eq]; exact ⟨rfl, rfl⟩),
    countAdd_eq]

/-! ### The grant (R87) -/

section
variable {a : AddState} {count : Nat} {s : State} (ready : EventReady s) (add : s.accum.add = some a)
  (wins : decision s = some (.accum, count))

include ready add wins

/-- The granted word is read or written, and what follows from it is done. -/
theorem exec_accumGrant {u : State} (goes : addWordGranted a { s with path.passCount := count } = u)
    (settled : Settled u) (waiting : u.path.waiting = s.path.waiting) : exec .accumGrant s = .next (report u) := by
  refine congrArg Host.Outcome.next (happen_granted ready wins ?_ waiting)
  unfold accumGranted
  dsimp only
  rw [add]
  dsimp only
  rw [goes, advance_settled settled]

end

/-- The state in which the word of an add's point is written, its snoop done (R172). -/
def pointWritten (a : AddState) (count : Nat) (s : State) : State :=
  snoop (addAddress s a) (some a.slot) none { s with
    path.passCount := count
    mem := writeWord s.mem (addAddress s a) 0xF#4 (addWord s a) }

/-- The next access of an add is a write: of the sample in WRITE mode, and of a point that has been read. -/
theorem addWordGranted_writes {a : AddState} {count : Nat} {s : State} (h : a.mode = .write ∨ a.read ≠ none)
    (memory : addAddress s a < 0x1000000) (bg : ∀ b, s.trace.bg = some b → b.op ≠ .adopt) :
    addWordGranted a { s with path.passCount := count } = nextAddPoint a (pointWritten a count s) := by
  have writes : addReads a = false := by
    unfold addReads
    rcases h with mode | read
    · simp [mode]
    · simp [Option.isSome_iff_ne_none.2 read]
  rw [addWordGranted, if_neg (by simp [writes])]
  exact congrArg (nextAddPoint a) (ownWrite_snoops (s := { s with path.passCount := count }) memory bg _ _ _)

/-- What a grant that writes a point of an add does to memory and to the flags, and what it leaves alone. -/
def AddWrote (a : AddState) (count : Nat) (s t : State) : Prop :=
  (∀ old, a.read = some old → (readWord t.mem (addAddress s a)).toNat =
    min 4294967295 (old.toNat + sampleAt (bufferSamples s a.buffer) a.point)) ∧
  (a.read = none →
    (readWord t.mem (addAddress s a)).toNat = sampleAt (bufferSamples s a.buffer) a.point) ∧
  (∀ x, x < addAddress s a ∨ addAddress s a + 4 ≤ x → readByte t.mem x = readByte s.mem x) ∧
  (∀ j : SlotIx, t.verdict.table[j] = { s.verdict.table[j] with
    based := s.verdict.table[j].based && !inBaseBuffer s j (addAddress s a) }) ∧
  (∀ j : SlotIx, j ≠ a.slot →
    t.accum.ready[j] = (s.accum.ready[j] && !inAccBuffer s j (addAddress s a))) ∧
  t.plan = s.plan ∧ t.trace = s.trace ∧ t.findings = s.findings ∧ t.verdict = { s.verdict with
    table := t.verdict.table } ∧ t.path = { s.path with passCount := count } ∧ t.pins = s.pins

/-- The write of a point moves memory, the ready and the based flags alone. -/
@[simp] theorem pointWritten_frame (a : AddState) (count : Nat) (s : State) :
    (pointWritten a count s).plan = s.plan ∧ (pointWritten a count s).seq = s.seq ∧
    (pointWritten a count s).opt = s.opt ∧ (pointWritten a count s).intake = s.intake ∧
    (pointWritten a count s).accum.queue = s.accum.queue ∧ (pointWritten a count s).accum.add = s.accum.add ∧
    (pointWritten a count s).accum.lock = s.accum.lock ∧
    (pointWritten a count s).accum.clippedContent = s.accum.clippedContent ∧
    (pointWritten a count s).trace = s.trace ∧ (pointWritten a count s).findings = s.findings ∧
    (pointWritten a count s).path = { s.path with passCount := count } ∧ (pointWritten a count s).pins = s.pins := by
  simp [pointWritten, snoop]

/-- The write of a point leaves the records in force. -/
@[simp] theorem activeRecord_pointWritten (a : AddState) (count : Nat) (s : State) :
    activeRecord (pointWritten a count s) = activeRecord s := by
  funext k
  simp [activeRecord]

/-- A state that shows what the write of a point has left, the slot's own ready flag apart. -/
theorem addWrote_of {a : AddState} {count : Nat} {s t : State} (wf : Memory.wf s.mem = true)
    (memory : addAddress s a < 0x1000000) (ready : ∀ j, j ≠ a.slot →
      t.accum.ready[j] = (pointWritten a count s).accum.ready[j])
    (kept : t.mem = (pointWritten a count s).mem ∧ t.verdict = (pointWritten a count s).verdict ∧
      t.plan = s.plan ∧ t.trace = s.trace ∧ t.findings = s.findings ∧
      t.path = { s.path with passCount := count } ∧ t.pins = s.pins) :
    AddWrote a count s t := by
  obtain ⟨mem, verdict, plan, trace, findings, path, pins⟩ := kept
  have mem : t.mem = writeWord s.mem (addAddress s a) 0xF#4 (addWord s a) := mem
  have word : readWord t.mem (addAddress s a) = addWord s a := by rw [mem]; exact readWord_writeWord wf memory _
  have snooped := snoop_slot (addAddress s a) (some a.slot) none { s with
    path.passCount := count
    mem := writeWord s.mem (addAddress s a) 0xF#4 (addWord s a) }
  refine ⟨fun old h => ?_, fun h => ?_, fun x hx => ?_, fun j => ?_, fun j hj => ?_, plan, trace,
    findings, ?_, path, pins⟩
  · rw [word, addWord_sum h]
  · rw [word, addWord_sample h]
  · rw [mem, readByte_writeWord_other wf _ _ _ hx]
  · have other : ((none : Option SlotIx) != some j) = true := rfl
    have based := (snooped j).2
    rw [other, Bool.and_true] at based
    rw [verdict]
    exact based
  · have other : (some a.slot != some j) = true := by simpa using Ne.symm hj
    have kept := (snooped j).1
    rw [other, Bool.and_true] at kept
    rw [ready j hj]
    exact kept
  · rw [verdict]
    exact (snoop_blocks _ _ _ _).2

/-- A write into an add's own accumulator buffer leaves its slot's ready flag (R172). -/
theorem pointWritten_ready (a : AddState) (count : Nat) (s : State) :
    (pointWritten a count s).accum.ready[a.slot] = s.accum.ready[a.slot] := by
  have own : (some a.slot != some a.slot) = false := by simp
  have := (snoop_slot (addAddress s a) (some a.slot) none { s with
    path.passCount := count
    mem := writeWord s.mem (addAddress s a) 0xF#4 (addWord s a) } a.slot).1
  rw [own, Bool.and_false, Bool.not_false, Bool.and_true] at this
  exact this

/-- Settles O39: the read; the write with a further point; the write that completes the add, at the target and below. -/
theorem addPointGranted : Obligations.AddPointGranted := by
  intro a count s ready settled wf add wins memory wrote
  refine ⟨fun mode fresh => ?_, fun writes bg => ⟨fun more => ?_, fun last shoots comp view queue spaced => ?_⟩⟩
  · refine exec_accumGrant ready add wins ?_ (settled_of settled rfl rfl rfl) rfl
    rw [addWordGranted, if_pos (by simp [addReads, mode, fresh])]
    rfl
  · have goes : addWordGranted a { s with path.passCount := count } =
        { pointWritten a count s with accum.add := some { a with point := a.point + 1, read := none } } := by
      rw [addWordGranted_writes writes memory bg, nextAddPoint, activeRecord_pointWritten, if_pos more]
    have next : exec .accumGrant s = .next _ := exec_accumGrant ready add wins goes
      (settled_of settled (by simp) (by simp) (by simp)) (by simp)
    generalize ht : report _ = t at next
    exact ⟨t, next, addWrote_of wf memory (fun j _ => by simp [← ht]) (by simp [← ht]), by simp [← ht],
      by simpa [← ht] using pointWritten_ready a count s, by simp [← ht]⟩
  · have goes : addWordGranted a { s with path.passCount := count } = completeAdd a (pointWritten a count s) := by
      rw [addWordGranted_writes writes memory bg, nextAddPoint, activeRecord_pointWritten,
        if_neg (Nat.not_lt.2 last)]
    have shooting : shootingSlot (pointWritten a count s) = some a.slot := by simpa [shootingSlot] using shoots
    have trace : TraceIdle s := settled.2.2
    by_cases reached : s.intake.accepted[a.slot] + 1 = recTarget (activeRecord s a.slot)
    · rw [completeAdd_reached (by simpa) (by simpa) shooting (by simpa), countAdd_eq] at goes
      have next : exec .accumGrant s = .next _ := exec_accumGrant ready add wins goes
        (settled_awaiting rfl (by simpa) (traceIdle_of trace (by simp))) (by simp)
      generalize ht : report _ = t at next
      exact ⟨t, next,
        addWrote_of wf memory (fun j hj => by simp [← ht, Fin.val_ne_of_ne hj.symm]) (by simp [← ht]),
        by simp [← ht], by simp [← ht, queue], by simp [← ht], by simp [← ht],
        by simpa [← ht] using setBuffer_intake (by simp) _ _,
        fun _ => by simp [← ht], fun below => absurd reached below⟩
    · rw [completeAdd_below (by simpa) (by simpa) (by simpa [Spaced] using spaced) (by simpa), countAdd_eq] at goes
      have next : exec .accumGrant s = .next _ := exec_accumGrant ready add wins goes
        (settled_of settled (by simp) (by simp) (by simp)) (by simp)
      generalize ht : report _ = t at next
      exact ⟨t, next, addWrote_of wf memory (fun j _ => by simp [← ht]) (by simp [← ht]),
        by simp [← ht], by simp [← ht, queue], by simp [← ht], by simp [← ht],
        by simpa [← ht] using setBuffer_intake (by simp) _ _,
        fun h => absurd h reached, fun _ => by simpa [← ht] using pointWritten_ready a count s⟩

end Sys2Proof.Machine
end

section
/-! PROOFS. A TRACE grant in a comparison: the words of its points, and its end (O40). -/

namespace Sys2Proof.Machine

/-! ### The next word of an operation (R119, R128) -/

/-- A point whose accumulator word is not yet fetched asks for it. -/
theorem traceNeed_acc {b : Background} (h : b.acc = none) (memory : accAddress b < 0x1000000) :
    traceNeed b = .readAcc := by
  have memory : accAddress b < memoryEnd := memory
  simp [traceNeed, h, memory]

/-- A point whose accumulator word is fetched reads its baseline word, or writes it for an ADOPT. -/
theorem traceNeed_base {b : Background} {acc : Word} (h : b.acc = some acc) (memory : baseAddress b < 0x1000000) :
    traceNeed b = if b.op = .adopt then .writeBase else .readBase := by
  have memory : baseAddress b < memoryEnd := memory
  simp [traceNeed, h, memory]

/-- An operation whose point has a baseline word in trace memory needs a word. -/
theorem traceNeed_of_base {b : Background} (memory : baseAddress b < 0x1000000) : traceNeed b ≠ .nothing := by
  have memory : baseAddress b < memoryEnd := memory
  unfold traceNeed
  split_ifs <;> simp

/-- An operation at a fresh point with an accumulator word in trace memory needs a word. -/
theorem traceNeed_fresh {b : Background} (fresh : b.acc = none) (memory : accAddress b < 0x1000000) :
    traceNeed b ≠ .nothing := by
  rw [traceNeed_acc fresh memory]
  simp

/-- The background slot holds an operation that needs a word, or is FREE. -/
theorem traceSettled_bg {u : State} {x : Option Background} (h : u.trace.bg = x)
    (needs : ∀ b, x = some b → traceNeed b ≠ .nothing) : TraceSettled u :=
  fun b hb => needs b (h.symm.trans hb)

/-- A state whose lanes stand as they stood in a state that called for no move and no end is settled with its Trace
Engine. -/
theorem settled_lanes {s u : State} (calls : laneCalls s = false) (still : sweepOver s = false)
    (state : u.seq.state = s.seq.state) (acq : u.seq.acq = s.seq.acq) (comp : u.seq.comp.isNone = s.seq.comp.isNone)
    (ends : u.seq.orderEnded = s.seq.orderEnded ∧ u.seq.quietEnd = s.seq.quietEnd) (idle : TraceIdle u) :
    Settled u := by
  obtain ⟨order, quiet⟩ := ends
  refine ⟨?_, ?_, idle⟩
  · unfold laneCalls at calls ⊢
    rwa [state, acq, comp, order, quiet]
  · unfold sweepOver at still ⊢
    rwa [state, acq, comp, order, quiet]

/-! ### The grant (R119) -/

/-- The granted word is read or written, and what follows from it is done. -/
theorem exec_traceGrant {b : Background} {count : Nat} {s u : State} (ready : EventReady s) (bg : s.trace.bg = some b)
    (wins : decision s = some (.trace, count)) (goes : traceWordGranted b { s with path.passCount := count } = u)
    (settled : Settled u) (waiting : u.path.waiting = s.path.waiting) : exec .traceGrant s = .next (report u) := by
  refine congrArg Host.Outcome.next (happen_granted ready wins ?_ waiting)
  unfold traceGranted
  dsimp only
  rw [bg]
  dsimp only
  rw [goes, advance_settled settled]

/-- A comparison's accumulator word is fetched. -/
theorem traceWordGranted_acc {b : Background} (op : b.op ≠ .adopt) (fresh : b.acc = none)
    (acc : accAddress b < 0x1000000) (base : baseAddress b < 0x1000000) (s : State) :
    traceWordGranted b s = { s with trace.bg := some { b with acc := some (readWord s.mem (accAddress b)) } } := by
  have base : baseAddress b < memoryEnd := base
  simp only [traceWordGranted, traceNeed_acc fresh acc, if_neg op, if_pos base]

/-- A comparison's point is done with its baseline word. -/
theorem traceWordGranted_base {b : Background} {acc : Word} (op : b.op ≠ .adopt) (fetched : b.acc = some acc)
    (base : baseAddress b < 0x1000000) (s : State) :
    traceWordGranted b s = comparePoint b acc (readWord s.mem (baseAddress b)) s := by
  simp only [traceWordGranted, traceNeed_base fetched base, if_neg op, pointAcc, fetched, Option.getD_some]

/-! ### Points of a comparison (R100, R111, R113, R118) -/

/-- A point that meets no condition advances the comparison record. -/
theorem comparePoint_clear {b : Background} {acc base : Word}
    (unsaturated : saturatedPoint acc (recDark b.record) b.shots = false) (present : base.toInt ≠ -2147483648)
    (s : State) : comparePoint b acc base s =
      nextComparePoint { b with
        cmp := advancePoint (recConfirm b.record) (recFloor b.record) b.cmp b.point (classify b b.point acc base)
          (pointDeviation b acc base) base.toInt } s := by
  have present : decide (base.toInt = absentCode) = false := decide_eq_false present
  unfold comparePoint
  dsimp only
  rw [unsaturated, testCondition_false, onGoing_some, present, testCondition_false, onGoing_some]

/-- A COMPARE-RUN that hands on a result: the glitch count is reported, and its slot passes to POSTING (R33, R118). -/
theorem endCompare_posting {b : Background} (op : b.op = .compareRun) (r : Result) {s : State}
    (comp : s.seq.comp = some ⟨b.slot, .comparing⟩) : endCompare b r s = report { s with
      trace.bg := none
      trace.glitchCount := s.trace.glitchCount.set b.slot r.glitches
      seq.comp := some ⟨b.slot, .posting r⟩ } := by
  have reported : reportResult b.slot r { s with trace.glitchCount := s.trace.glitchCount.set b.slot r.glitches } =
      { s with
        trace.glitchCount := s.trace.glitchCount.set b.slot r.glitches
        seq.comp := some ⟨b.slot, .posting r⟩ } := by
    simp [reportResult, comp]
  rw [endCompare_run (by simp [op]), reported]
  rfl

/-- A COMPARE-RUN that ends in the comparison lane, from the state `w` in which it hands on its result (R118). -/
theorem compareRun_ends {b b' : Background} {count : Nat} {r : Result} {s w : State} (ready : EventReady s)
    (bg : s.trace.bg = some b) (wins : decision s = some (.trace, count))
    (goes : traceWordGranted b { s with path.passCount := count } = endCompare b' r w)
    (op : b'.op = .compareRun) (comp : s.seq.comp = some ⟨b'.slot, .comparing⟩) (calls : laneCalls s = false)
    (still : sweepOver s = false) (view : w.trace.view = none)
    (kept : w.seq = s.seq ∧ w.path.waiting = s.path.waiting) :
    exec .traceGrant s = .next (report (report { w with
      trace.bg := none
      trace.glitchCount := w.trace.glitchCount.set b'.slot r.glitches
      seq.comp := some ⟨b'.slot, .posting r⟩ })) := by
  obtain ⟨seq, waiting⟩ := kept
  rw [endCompare_posting op r (by rw [seq]; exact comp)] at goes
  refine exec_traceGrant ready bg wins goes (settled_report ?_) (by simpa using waiting)
  refine settled_lanes calls still ?_ ?_ ?_ ?_ (idle_of view (traceSettled_bg rfl (by simp)))
  · simp [seq]
  · simp [seq]
  · simp [comp]
  · simp [seq]

/-- What a COMPARE-COMMAND leaves that has posted its verdict, from the state `u` (R128, R142). -/
theorem compareCommand_leaves (k : SlotIx) (v : Verdict) (u : State) :
    let t := report (setBg none (postVerdict k v (liftGuard .compareCommand k u)))
    t.path = { u.path with
      guards := u.path.guards.filter fun g => !(g.holder = .compareCommand && g.slot = k) } ∧
    t.seq = u.seq ∧ t.trace = { u.trace with bg := none } ∧
    (t.plan = u.plan ∧ t.opt = u.opt ∧ t.intake = u.intake ∧ t.accum = u.accum ∧ t.mem = u.mem ∧
      t.pins = u.pins) ∧
    ∀ s : State, u.plan = s.plan → u.findings = s.findings → u.verdict = s.verdict → VerdictPosted k v s t := by
  refine ⟨?_, ?_, ?_, ?_, fun s hp hf hv => verdictPosted_of (u := liftGuard .compareCommand k u) hp hf hv ?_ ?_⟩
  all_goals simp [setBg, liftGuard]

/-- A COMPARE-COMMAND that ends, from the state `w` in which it hands on its result: its guard is lifted and the result
posted by itself (R128, R142). -/
theorem compareCommand_ends {b b' : Background} {k : SlotIx} {count : Nat} {r : Result} {s w : State}
    (ready : EventReady s) (bg : s.trace.bg = some b) (wins : decision s = some (.trace, count))
    (goes : traceWordGranted b { s with path.passCount := count } = endCompare b' r w)
    (op : b'.op = .compareCommand) (slot : b'.slot = k) (plan : PlanSettled w) (state : w.seq.state ≠ .sweeping)
    (view : w.trace.view = none) (waiting : w.path.waiting = s.path.waiting) :
    ∃ t, exec .traceGrant s = .next t ∧
      t.path = { w.path with
        guards := w.path.guards.filter fun g => !(g.holder = .compareCommand && g.slot = k) } ∧
      t.seq = w.seq ∧
      t.trace = { w.trace with bg := none, glitchCount := w.trace.glitchCount.set k r.glitches } ∧
      (t.plan = w.plan ∧ t.opt = w.opt ∧ t.intake = w.intake ∧ t.accum = w.accum ∧ t.mem = w.mem ∧
        t.pins = w.pins) ∧
      ∀ s : State, w.plan = s.plan → w.findings = s.findings → w.verdict = s.verdict →
        VerdictPosted k (unpairedVerdict r) s t := by
  subst slot
  rw [endCompare_command op r plan] at goes
  refine ⟨_, exec_traceGrant ready bg wins goes (settled_outside ?_ ?_ ?_) ?_,
    compareCommand_leaves b'.slot (unpairedVerdict r)
      { w with trace.glitchCount := w.trace.glitchCount.set b'.slot r.glitches }⟩
  · simpa [setBg] using state
  · simpa [setBg] using view
  · exact traceSettled_bg (x := none) (by simp [setBg]) (by simp)
  · simpa [setBg] using waiting

/-- Settles O40: the accumulator word; then the baseline word, with a further point or at the compare end. -/
theorem comparePointGranted : Obligations.ComparePointGranted := by
  intro b count s ready view calls still bg op wins memAcc memBase
  refine ⟨fun fresh => ?_, fun acc fetched unsaturated present => ?_⟩
  · refine exec_traceGrant ready bg wins (traceWordGranted_acc op fresh memAcc memBase _) ?_ rfl
    exact settled_lanes calls still rfl rfl rfl ⟨rfl, rfl⟩
      (idle_of view (traceSettled_bg rfl fun b' hb => by cases hb; exact traceNeed_of_base memBase))
  · intro base x r ended
    refine ⟨fun more next => ?_, fun last run comp => ?_, fun last command outside plan => ?_⟩
    · have goes : traceWordGranted b { s with path.passCount := count } = { s with
          path.passCount := count
          trace.bg := some { b with point := b.point + 1, acc := none, cmp := x } } := by
        rw [traceWordGranted_base op fetched memBase]
        refine (comparePoint_clear unsaturated present _).trans ?_
        exact if_pos more
      refine exec_traceGrant ready bg wins goes (settled_lanes calls still rfl rfl rfl ⟨rfl, rfl⟩
        (idle_of view (traceSettled_bg rfl fun b' hb => ?_))) rfl
      cases hb
      exact traceNeed_fresh rfl (by unfold accAddress at next ⊢; dsimp only; omega)
    all_goals
      have goes : traceWordGranted b { s with path.passCount := count } =
          endCompare { b with cmp := x } r { s with path.passCount := count } := by
        rw [traceWordGranted_base op fetched memBase]
        refine (comparePoint_clear unsaturated present _).trans ?_
        exact (if_neg (Nat.not_lt.2 last)).trans (finishCompare_eq _ _)
    · have next := compareRun_ends ready bg wins goes run comp calls still view ⟨rfl, rfl⟩
      generalize ht : report (report _) = t at next
      exact ⟨t, next, by simp [ended, ← ht], by simp [← ht], by simp [← ht], by simp [← ht],
        by simp [← ht]⟩
    · obtain ⟨t, next, path, seq, trace, ⟨plan, kept⟩, posted⟩ :=
        compareCommand_ends ready bg wins goes command rfl
        (planSettled_of plan rfl) outside view rfl
      exact ⟨t, next, ⟨trace, plan, kept⟩, seq, path, posted s rfl rfl rfl⟩

end Sys2Proof.Machine
end

section
/-! PROOFS. Conditions met by an operation at a point, under STOPPING and under MASKED (O41). -/

namespace Sys2Proof.Machine

/-! ### A comparison's point that meets a condition (R100, R102, R103, R118) -/

/-- The condition that a comparison's point meets: SATURATED is tested first, then GAP. -/
def PointMeets (c : Condition) (b : Background) (acc base : Word) : Prop :=
  c = .saturated ∧ saturatedPoint acc (recDark b.record) b.shots = true ∨
    c = .gap ∧ saturatedPoint acc (recDark b.record) b.shots = false ∧ base.toInt = -2147483648

/-- A condition met anew under STOPPING stops a comparison with its FAULTED result (R103, R118). -/
theorem comparePoint_stops {c : Condition} {b : Background} {acc base : Word} (meets : PointMeets c b acc base)
    (op : b.op ≠ .adopt) (fresh : b.raised.has c = false) (stops : b.stopping.has c = true) (s : State) :
    comparePoint b acc base s = endCompare { b with raised := b.raised.insert c }
      (stoppedResult b b.point s.seq.sweepNumber) (captureStop b b.point c (raiseCondition c b.slot s)) := by
  have ends : stopOperation { b with raised := b.raised.insert c } b.point c (raiseCondition c b.slot s) =
      endCompare { b with raised := b.raised.insert c } (stoppedResult b b.point s.seq.sweepNumber)
        (captureStop b b.point c (raiseCondition c b.slot s)) := by
    have sweep : (captureStop b b.point c (raiseCondition c b.slot s)).seq.sweepNumber = s.seq.sweepNumber := by simp
    rw [stopOperation, if_neg op, ← sweep]
    rfl
  rw [← ends]
  unfold comparePoint
  dsimp only
  rcases meets with ⟨rfl, saturated⟩ | ⟨rfl, unsaturated, absent⟩
  · rw [saturated, testCondition_stops fresh stops, onGoing_none]
  · have absent : decide (base.toInt = absentCode) = true := decide_eq_true absent
    rw [unsaturated, testCondition_false, onGoing_some, absent, testCondition_stops fresh stops, onGoing_none]

/-- A skipped point ends the current run (R113). -/
theorem advancePoint_skip (c : Nat) (floorLevel : Int) (x : Comparison) (i : Nat) (d base : Int) :
    advancePoint c floorLevel x i .skip d base =
      { x with run := none, prev := some .skip, glitches := glitchesAtEnd c x } := by
  unfold advancePoint
  cases run : x.run with
  | none => simp [glitchesAtEnd, run]
  | some r =>
    simp only [true_or, if_true]
    rw [← endRun_glitches]
    simp [endRun, run]

/-- A condition met anew under MASKED joins the operation's sets, and the point is classed as it stands, a GAP point
skipped (R102, R111). -/
theorem comparePoint_masks {c : Condition} {b : Background} {acc base : Word} (meets : PointMeets c b acc base)
    (present : c = .saturated → base.toInt ≠ -2147483648) (fresh : b.raised.has c = false)
    (masks : b.stopping.has c = false) (s : State) : comparePoint b acc base s =
      nextComparePoint { b with
        raised := b.raised.insert c
        masked := b.masked.insert c
        cmp := if c = .gap then
            { b.cmp with run := none, prev := some .skip, glitches := glitchesAtEnd (recConfirm b.record) b.cmp }
          else advancePoint (recConfirm b.record) (recFloor b.record) b.cmp b.point (classify b b.point acc base)
            (pointDeviation b acc base) base.toInt } (raiseCondition c b.slot s) := by
  unfold comparePoint
  dsimp only
  rcases meets with ⟨rfl, saturated⟩ | ⟨rfl, unsaturated, absent⟩
  · have present : decide (base.toInt = absentCode) = false := decide_eq_false (present rfl)
    rw [saturated, testCondition_masks fresh masks, onGoing_some, present, testCondition_false, onGoing_some]
    rfl
  · have gap : decide (base.toInt = absentCode) = true := decide_eq_true absent
    rw [unsaturated, testCondition_false, onGoing_some, gap, testCondition_masks fresh masks, onGoing_some]
    have skips : ∀ b', classify b' b.point acc base = .skip := fun b' => if_pos absent
    rw [skips, advancePoint_skip]
    rfl

/-! ### An ADOPT's point that meets SATURATED (R100, R124) -/

/-- An ADOPT's accumulator word is fetched. -/
theorem traceWordGranted_adopt {b : Background} (op : b.op = .adopt) (fresh : b.acc = none)
    (acc : accAddress b < 0x1000000) (s : State) :
    traceWordGranted b s = adoptRead b (readWord s.mem (accAddress b)) s := by
  simp only [traceWordGranted, traceNeed_acc fresh acc, if_pos op]

/-- SATURATED met under STOPPING ends the ADOPT (R103, R126). -/
theorem adoptRead_stops {b : Background} {acc : Word} (op : b.op = .adopt) (inside : inCompareRange b = true)
    (saturated : saturatedPoint acc (recDark b.record) b.shots = true) (fresh : b.raised.has .saturated = false)
    (stops : b.stopping.has .saturated = true) {s : State} (plan : PlanSettled s) : adoptRead b acc s =
      setBg none (liftGuard .adopt b.slot (captureStop b b.point .saturated (raiseCondition .saturated b.slot s))) := by
  unfold adoptRead
  rw [inside, saturated, Bool.and_self, testCondition_stops fresh stops, onGoing_none, stopOperation]
  refine (if_pos op).trans (endAdopt_settled _ (planSettled_of plan (by simp)))

/-- SATURATED met under MASKED lets the ADOPT go on with the word (R102). -/
theorem adoptRead_masks {b : Background} {acc : Word} (inside : inCompareRange b = true)
    (saturated : saturatedPoint acc (recDark b.record) b.shots = true) (fresh : b.raised.has .saturated = false)
    (masks : b.stopping.has .saturated = false) (s : State) : adoptRead b acc s =
      { raiseCondition .saturated b.slot s with trace.bg := some { b with
        raised := b.raised.insert .saturated
        masked := b.masked.insert .saturated
        acc := some acc } } := by
  unfold adoptRead
  rw [inside, saturated, Bool.and_self, testCondition_masks fresh masks, onGoing_some]

/-- Settles O41: a comparison's point stops a run, stops a command, or is masked; an ADOPT's stops it or is masked. -/
theorem gapMet : Obligations.GapMet := by
  intro b count s ready view calls still bg wins lifted kept
  refine ⟨fun acc c op fetched memBase fresh => ?_,
    fun op fresh outside memAcc memBase first last unraised saturated => ⟨fun stops plan => ?_, fun masks => ?_⟩⟩
  · intro base saturated meets
    have point : traceWordGranted b { s with path.passCount := count } =
      comparePoint b acc base { s with path.passCount := count } := traceWordGranted_base op fetched memBase _
    refine ⟨fun stops run comp => ?_, fun stops command outside plan => ?_, fun masks present more next => ?_⟩
    · rw [comparePoint_stops meets op fresh stops] at point
      have next := compareRun_ends ready bg wins point run comp calls still (by simpa using view) (by simp)
      generalize ht : report (report _) = t at next
      refine ⟨t, next, stopped_of (w := { s with path.passCount := count }) rfl rfl rfl ?_ ?_, ?_, ?_, ?_, ?_, ?_⟩
      all_goals simp [← ht, kept, stoppedResult]
    · obtain ⟨w, hw⟩ : ∃ w, w = captureStop b b.point c
          (raiseCondition c b.slot { s with path.passCount := count }) := ⟨_, rfl⟩
      have ends : traceWordGranted b { s with path.passCount := count } =
          endCompare { b with raised := b.raised.insert c } (stoppedResult b b.point s.seq.sweepNumber) w := by
        rw [hw]
        exact point.trans (comparePoint_stops meets op fresh stops _)
      obtain ⟨t, next, path, seq, trace, ⟨plan', opt, intake, accum, mem, pins⟩, posted⟩ :=
        compareCommand_ends ready bg wins ends command rfl (planSettled_of plan (by simp [hw]))
          (by simpa [hw] using outside) (by simpa [hw] using view) (by simp [hw])
      refine ⟨{ s with findings := w.findings }, t, next, rfl, stopped_of (w := { s with path.passCount := count })
        rfl rfl rfl ?_ (by simp [hw]), ?_, seq.trans ?_, ?_, path.trans ?_, posted _ ?_ rfl ?_⟩
      · rw [trace, hw]
      · simp [kept, plan', opt, intake, accum, mem, pins, hw]
      · simp [hw]
      · simp [trace, hw, stoppedResult]
      all_goals simp [hw]
    · have goes : traceWordGranted b { s with path.passCount := count } = _ :=
        point.trans ((comparePoint_masks meets present fresh masks _).trans (if_pos more))
      refine exec_traceGrant ready bg wins goes (settled_lanes calls still rfl rfl rfl ⟨rfl, rfl⟩
        (idle_of view (traceSettled_bg rfl fun b' hb => ?_))) rfl
      cases hb
      exact traceNeed_fresh rfl (by unfold accAddress at next ⊢; dsimp only; omega)
  all_goals
    have inside : inCompareRange b = true := by simp [inCompareRange, first, last]
    have read : traceWordGranted b { s with path.passCount := count } =
      adoptRead b (readWord s.mem (accAddress b)) { s with path.passCount := count } :=
      traceWordGranted_adopt op fresh memAcc _
  · rw [adoptRead_stops op inside saturated unraised stops
      (planSettled_of (t := { s with path.passCount := count }) plan rfl)] at read
    have next := exec_traceGrant ready bg wins read (settled_outside (by simpa [setBg, liftGuard] using outside)
      (by simpa [setBg, liftGuard] using view) (traceSettled_bg (x := none) (by simp [setBg]) (by simp)))
      (by simp [setBg, liftGuard])
    generalize ht : report (setBg none _) = t at next
    refine ⟨t, next, stopped_of (w := { s with path.passCount := count }) rfl rfl rfl ?_ ?_, ?_, ?_, ?_, ?_, ?_⟩
    all_goals simp [← ht, setBg, kept, lifted, liftGuard]
  · rw [adoptRead_masks inside saturated unraised masks] at read
    refine exec_traceGrant ready bg wins read (settled_outside outside view
      (traceSettled_bg rfl fun b' hb => ?_)) rfl
    cases hb
    exact traceNeed_of_base memBase

end Sys2Proof.Machine
end

section
/-! PROOFS. An ADOPT's points: the read, the write of the baseline word, and the upstream write that ends it (O42). -/

namespace Sys2Proof.Machine

/-! ### Reads and writes of an ADOPT (R119, R124, R125) -/

/-- The word an ADOPT writes, by the point's light (R124). -/
theorem adoptWord_eq (b : Background) (acc : Word) : adoptWord b acc = BitVec.ofInt 32
    (if (acc.toNat : Int) - (recDark b.record * b.shots : Nat) ≤ 0 then -2147483647
     else level ((acc.toNat : Int) - (recDark b.record * b.shots : Nat)).toNat 1 b.shots) := by
  unfold adoptWord pointLevel pointLight lightSum
  rw [Nat.one_mul]
  rfl

/-- The state in which an ADOPT's baseline word is written, its snoop done (R124, R172). -/
def levelWritten (b : Background) (acc : Word) (count : Nat) (s : State) : State :=
  snoop (baseAddress b) none (some b.slot) { s with
    path.passCount := count
    mem := writeWord s.mem (baseAddress b) 0xF#4 (adoptWord b acc) }

/-- A baseline word in no accumulator buffer moves memory and the other slots' based flags alone. -/
theorem levelWritten_frame {b : Background} {s : State}
    (apart : ∀ j : SlotIx, inAccBuffer s j (baseAddress b) = false) (acc : Word) (count : Nat) :
    (levelWritten b acc count s).plan = s.plan ∧ (levelWritten b acc count s).seq = s.seq ∧
    (levelWritten b acc count s).opt = s.opt ∧ (levelWritten b acc count s).intake = s.intake ∧
    (levelWritten b acc count s).accum = s.accum ∧
    (levelWritten b acc count s).trace = s.trace ∧ (levelWritten b acc count s).findings = s.findings ∧
    (levelWritten b acc count s).path = { s.path with passCount := count } ∧
    (levelWritten b acc count s).pins = s.pins ∧
    (levelWritten b acc count s).mem = writeWord s.mem (baseAddress b) 0xF#4 (adoptWord b acc) := by
  have ready : mapSlots s.accum.ready (fun k r => r && !(inAccBuffer s k (baseAddress b) && none != some k)) =
      s.accum.ready := by
    refine Vector.ext fun i hi => ?_
    simp [mapSlots, apart]
  have accum : (levelWritten b acc count s).accum = s.accum := congrArg (fun r => { s.accum with ready := r }) ready
  refine ⟨?_, ?_, ?_, ?_, accum, ?_, ?_, ?_, ?_, ?_⟩
  all_goals simp [levelWritten, snoop]

/-- The based flag of each slot as the baseline word is written: the slot's own is left (R133, R172). -/
theorem levelWritten_table (b : Background) (acc : Word) (count : Nat) (s : State) (j : SlotIx) :
    (levelWritten b acc count s).verdict.table[j] = { s.verdict.table[j] with
      based := s.verdict.table[j].based && !(inBaseBuffer s j (baseAddress b) && some b.slot != some j) } :=
  (snoop_slot (baseAddress b) none (some b.slot) { s with
    path.passCount := count
    mem := writeWord s.mem (baseAddress b) 0xF#4 (adoptWord b acc) } j).2

/-- An ADOPT's baseline word is written: the operation goes on, completes, or ends where its slot is no longer ready
(R124, R125, R126). -/
theorem traceWordGranted_level {b : Background} {acc : Word} {count : Nat} {s : State} (op : b.op = .adopt)
    (bg : s.trace.bg = some b) (fetched : b.acc = some acc) (memory : baseAddress b < 0x1000000)
    (apart : ∀ j : SlotIx, inAccBuffer s j (baseAddress b) = false) :
    traceWordGranted b { s with path.passCount := count } =
      if s.accum.ready[b.slot] then nextAdoptPoint b (levelWritten b acc count s)
      else endAdopt b (levelWritten b acc count s) := by
  obtain ⟨plan, seq, opt, intake, accum, trace, findings, path, pins, mem⟩ := levelWritten_frame apart acc count
  have wrote : ownWrite (baseAddress b) (adoptWord b acc) none (some b.slot) { s with path.passCount := count } =
      levelWritten b acc count s := by
    unfold ownWrite
    dsimp only
    rw [if_pos (show baseAddress b < memoryEnd from memory)]
    exact endAdoptIfCleared_kept (congrArg AccumState.ready accum)
  simp only [traceWordGranted, traceNeed_base fetched memory, if_pos op, adoptWrite, pointAcc, fetched,
    Option.getD_some, wrote, trace, bg, Option.isNone_some, Bool.false_eq_true, if_false, accum]

/-- What an ADOPT that has ended or completed leaves of the Trace Engine and of the guards (R125, R126). -/
theorem endAdopt_leaves (b : Background) (s : State) :
    (endAdopt b s).trace = { s.trace with bg := none } ∧ (endAdopt b s).path = { s.path with
      guards := s.path.guards.filter fun g => !(g.holder = .adopt && g.slot = b.slot) } := by
  simp [endAdopt, setBg, liftGuard]

/-- A slot's based flag set (R125). -/
theorem setBased_slot (k j : SlotIx) (v : Bool) (s : State) : (setBased k v s).verdict.table[j] =
    if j = k then { s.verdict.table[j] with based := v } else s.verdict.table[j] := by
  unfold setBased modifySlot
  by_cases h : j = k
  · subst h
    simp
  · simp [h, Fin.val_ne_of_ne (Ne.symm h)]

/-- An ADOPT that ends with its write ends from a state that shows the write, with a verdict block `v` in which its slot
is based where it is still ready (R125, R126). -/
theorem adopt_ends {b : Background} {acc : Word} {count : Nat} {s : State} (op : b.op = .adopt)
    (bg : s.trace.bg = some b) (fetched : b.acc = some acc) (memory : baseAddress b < 0x1000000)
    (apart : ∀ j : SlotIx, inAccBuffer s j (baseAddress b) = false)
    (last : s.accum.ready[b.slot] = false ∨ recPoints b.record ≤ b.point + 1) :
    ∃ v : VerdictState, traceWordGranted b { s with path.passCount := count } =
        endAdopt b { levelWritten b acc count s with verdict := v } ∧
      (∀ j : SlotIx, j ≠ b.slot → v.table[j] = { s.verdict.table[j] with
        based := s.verdict.table[j].based && !inBaseBuffer s j (baseAddress b) }) ∧
      v.table[b.slot] =
        { s.verdict.table[b.slot] with based := s.accum.ready[b.slot] || s.verdict.table[b.slot].based } := by
  have table := levelWritten_table b acc count s
  have others : ∀ j : SlotIx, j ≠ b.slot → (levelWritten b acc count s).verdict.table[j] = { s.verdict.table[j] with
      based := s.verdict.table[j].based && !inBaseBuffer s j (baseAddress b) } := fun j hj => by
    have other : (some b.slot != some j) = true := by simpa using Ne.symm hj
    rw [table, other, Bool.and_true]
  have own : (levelWritten b acc count s).verdict.table[b.slot] = s.verdict.table[b.slot] := by
    rw [table]
    simp
  rw [traceWordGranted_level op bg fetched memory apart]
  cases ready : s.accum.ready[b.slot] with
  | false =>
    refine ⟨(levelWritten b acc count s).verdict, if_neg (by simp), others, ?_⟩
    rw [own]
    simp
  | true =>
    have done : recPoints b.record ≤ b.point + 1 := last.resolve_left (by simp [ready])
    refine ⟨(setBased b.slot true (levelWritten b acc count s)).verdict,
      (if_pos rfl).trans (if_neg (Nat.not_lt.2 done)), fun j hj => ?_, ?_⟩
    · rw [setBased_slot, if_neg hj, others j hj]
    · rw [setBased_slot, if_pos rfl, own]
      simp

/-- What an upstream write of a whole or part word leaves once it has reached memory, its snoop done (R171). -/
def passWritten (a : Access) (count : Nat) (s : State) : State :=
  snoop a.word none none { s with
    path.pass := none
    path.passCount := count
    mem := writeWord s.mem a.word a.be a.data }

/-- An upstream write moves memory, the ready and the based flags, and is the request no more. -/
theorem passWritten_frame (a : Access) (count : Nat) (s : State) :
    (passWritten a count s).plan = s.plan ∧ (passWritten a count s).seq = s.seq ∧
    (passWritten a count s).opt = s.opt ∧ (passWritten a count s).intake = s.intake ∧
    (passWritten a count s).accum = { s.accum with ready := (passWritten a count s).accum.ready } ∧
    (passWritten a count s).trace = s.trace ∧ (passWritten a count s).findings = s.findings ∧
    (passWritten a count s).verdict = { s.verdict with table := (passWritten a count s).verdict.table } ∧
    (passWritten a count s).path = { s.path with pass := none, passCount := count } ∧
    (passWritten a count s).pins = s.pins ∧
    (passWritten a count s).mem = writeWord s.mem a.word a.be a.data := by
  refine ⟨?_, ?_, ?_, ?_, ?_, ?_, ?_, ?_, ?_, ?_, ?_⟩
  all_goals simp [passWritten, snoop]

/-- The flags of each slot as an upstream write reaches memory (R171). -/
theorem passWritten_flags (a : Access) (count : Nat) (s : State) (j : SlotIx) :
    (passWritten a count s).accum.ready[j] = (s.accum.ready[j] && !inAccBuffer s j a.word) ∧
    (passWritten a count s).verdict.table[j] = { s.verdict.table[j] with
      based := s.verdict.table[j].based && !inBaseBuffer s j a.word } :=
  snoop_upstream a.word { s with
    path.pass := none
    path.passCount := count
    mem := writeWord s.mem a.word a.be a.data } j

/-- A write of a ready slot's accumulator word ends its ADOPT, but for a write of the word its point has read (R126). -/
theorem endAdoptIfCleared_clears {a : Nat} {b : Background} {before after : State} (bg : after.trace.bg = some b)
    (op : b.op = .adopt) (was : before.accum.ready[b.slot] = true) (cleared : after.accum.ready[b.slot] = false) :
    endAdoptIfCleared a before after = if pointHolds b a then after else endAdopt b after := by
  unfold endAdoptIfCleared
  rw [bg]
  cases holds : pointHolds b a <;> simp [op, was, cleared, holds]

/-- The grant of an upstream write into the accumulator buffer of a ready slot in ADOPT (R126, R171). -/
theorem passGranted_clears {a : Access} {b : Background} {count : Nat} {s : State} (pass : s.path.pass = some a)
    (write : a.write = true) (enabled : a.be ≠ 0) (bg : s.trace.bg = some b) (op : b.op = .adopt)
    (inside : inAccBuffer s b.slot a.word = true) (was : s.accum.ready[b.slot] = true) :
    passGranted { s with path.passCount := count } =
      runTrace (if pointHolds b a.word then passWritten a count s else endAdopt b (passWritten a count s)) := by
  have cleared : (passWritten a count s).accum.ready[b.slot] = false := by
    rw [(passWritten_flags a count s b.slot).1, inside]
    simp
  have trace : (passWritten a count s).trace.bg = some b := by
    obtain ⟨-, -, -, -, -, trace, -⟩ := passWritten_frame a count s
    rw [trace, bg]
  have enabled : ¬ a.be = 0#4 := enabled
  rw [← endAdoptIfCleared_clears (before := { s with path.passCount := count }) trace op was cleared]
  unfold passGranted
  dsimp only
  rw [pass]
  dsimp only
  rw [if_pos write, if_neg enabled]
  rfl

/-- Settles O42: the read; the write; the upstream write. -/
theorem adoptPointGranted : Obligations.AdoptPointGranted := by
  intro b count s ready view outside wf bg op lifted
  refine ⟨fun fresh wins memAcc memBase unsaturated => ?_, fun acc fetched wins memBase apart next => ?_,
    fun a pass wins write enabled memory inside was => ?_⟩
  · have goes : traceWordGranted b { s with path.passCount := count } = { s with
        path.passCount := count
        trace.bg := some { b with acc := some (readWord s.mem (accAddress b)) } } := by
      rw [traceWordGranted_adopt op fresh memAcc]
      unfold adoptRead
      dsimp only
      rw [unsaturated, Bool.and_false, testCondition_false, onGoing_some]
    refine exec_traceGrant ready bg wins goes (settled_outside outside view
      (traceSettled_bg rfl fun b' hb => ?_)) rfl
    cases hb
    exact traceNeed_of_base memBase
  · obtain ⟨plan, seq, opt, intake, accum, trace, findings, path, pins, mem⟩ := levelWritten_frame apart acc count
    have word : readWord (writeWord s.mem (baseAddress b) 0xF#4 (adoptWord b acc)) (baseAddress b) = adoptWord b acc :=
      readWord_writeWord wf memBase _
    have others : ∀ x, x < baseAddress b ∨ baseAddress b + 4 ≤ x →
        readByte (writeWord s.mem (baseAddress b) 0xF#4 (adoptWord b acc)) x = readByte s.mem x :=
      fun x hx => readByte_writeWord_other wf _ _ _ hx
    by_cases more : s.accum.ready[b.slot] = true ∧ b.point + 1 < recPoints b.record
    · obtain ⟨still, further⟩ := more
      have goes : traceWordGranted b { s with path.passCount := count } = { levelWritten b acc count s with
          trace.bg := some { b with point := b.point + 1, acc := none } } := by
        rw [traceWordGranted_level op bg fetched memBase apart, if_pos still, nextAdoptPoint, if_pos further]
      have run := exec_traceGrant ready bg wins goes (settled_outside (by simpa [seq] using outside)
        (by simpa [trace] using view) (traceSettled_bg rfl fun b' hb => by
          cases hb
          exact traceNeed_fresh rfl (by unfold accAddress at next ⊢; dsimp only; omega))) (by simp [path])
      generalize ht : report _ = t at run
      have table := levelWritten_table b acc count s
      refine ⟨t, run, ?_, fun x hx => ?_, fun _ => ⟨fun j hj => ?_, ?_⟩, fun _ _ => ⟨?_, ?_, ?_⟩, fun last => ?_, ?_⟩
      · rw [← adoptWord_eq, ← word, ← ht]
        simp [mem]
      · rw [← others x hx, ← ht]
        simp [mem]
      · have other : (some b.slot != some j) = true := by simpa using Ne.symm hj
        have table := table j
        rw [other, Bool.and_true] at table
        simpa [← ht] using table
      · simp [← ht, plan, accum, findings]
      · simp [← ht, trace]
      · simpa [← ht] using table b.slot
      · simp [← ht, path]
      · rcases last with off | last
        · rw [still] at off
          cases off
        · omega
      · simp [← ht, seq, opt, intake, pins]
    · have last : s.accum.ready[b.slot] = false ∨ recPoints b.record ≤ b.point + 1 := by
        by_cases h : s.accum.ready[b.slot] = true
        · exact .inr (Nat.not_lt.1 fun further => more ⟨h, further⟩)
        · exact .inl (by simpa using h)
      obtain ⟨v, goes, table, own⟩ := adopt_ends (count := count) op bg fetched memBase apart last
      obtain ⟨w, hw⟩ : ∃ w, w = { levelWritten b acc count s with verdict := v } := ⟨_, rfl⟩
      rw [← hw] at goes
      have wtrace : w.trace = s.trace := by simp [hw, trace]
      have wpath : w.path = { s.path with passCount := count } := by simp [hw, path]
      obtain ⟨etrace, epath⟩ := endAdopt_leaves b w
      rw [wtrace] at etrace
      rw [wpath] at epath
      have run := exec_traceGrant ready bg wins goes (settled_outside (by simpa [hw, seq] using outside)
        (by simpa [wtrace] using view) (traceSettled_bg (x := none) (by rw [etrace]) (by simp))) (by simp [wpath])
      have kept : PlanSettled s → (endAdopt b w).verdict = v ∧ (endAdopt b w).plan = s.plan ∧
          (endAdopt b w).accum = s.accum ∧ (endAdopt b w).findings = s.findings := fun settled => by
        rw [endAdopt_settled b (planSettled_of settled (by simp [hw, plan]))]
        simp [setBg, hw, plan, accum, findings, liftGuard]
      generalize ht : report _ = t at run
      refine ⟨t, run, ?_, fun x hx => ?_, fun settled => ⟨fun j hj => ?_, ?_⟩, fun h1 h2 => absurd ⟨h1, h2⟩ more,
        fun _ => ⟨?_, ?_, ?_, fun settled => ?_⟩, ?_⟩
      · rw [← adoptWord_eq, ← word, ← ht]
        simp [hw, mem]
      · rw [← others x hx, ← ht]
        simp [hw, mem]
      · obtain ⟨verdict, -⟩ := kept (settled.resolve_left more)
        simpa [← ht, verdict] using table j hj
      · obtain ⟨-, plan', accum', findings'⟩ := kept (settled.resolve_left more)
        simp [← ht, plan', accum', findings']
      · simp [← ht, etrace]
      · simp [lifted, ← ht, epath]
      · simp [← ht, epath]
      · obtain ⟨verdict, -⟩ := kept settled
        simpa [← ht, verdict] using own
      · simp [← ht, hw, seq, opt, intake, pins]
  · intro held base settled
    obtain ⟨plan, seq, opt, intake, accum, trace, findings, verdict, path, pins, mem⟩ := passWritten_frame a count s
    have flags := passWritten_flags a count s
    have granted := passGranted_clears (count := count) pass write enabled bg op inside was
    have holds : pointHolds b a.word = true ↔ held := by
      simp only [pointHolds, Bool.and_eq_true, decide_eq_true_eq, Option.isSome_iff_ne_none, held,
        eq_comm (a := accAddress b)]
    by_cases h : held
    · rw [if_pos (holds.2 h), runTrace_idle (idle_of (by rw [trace]; exact view)
        (traceSettled_bg (by rw [trace, bg]) fun b' hb => by cases hb; exact traceNeed_of_base (base h)))] at granted
      have run : exec .passGrant s = .next _ :=
        congrArg Host.Outcome.next (happen_granted ready wins granted (by rw [path]))
      generalize ht : report _ = t at run
      refine ⟨t, run, fun x => ?_, fun _ => ?_, fun free => absurd h free, ?_, ?_, ?_, fun j => ?_, ?_⟩
      · rw [← readByte_writeWord wf memory, ← mem, ← ht]
        simp
      · simp [← ht, trace, path]
      · simp [← ht, path]
      · simpa [← ht] using accum
      · simpa [← ht] using verdict
      · simpa [← ht] using flags j
      · simp [← ht, plan, seq, opt, intake, findings, pins]
    · rw [if_neg fun hh => h (holds.1 hh), endAdopt_settled b (planSettled_of (settled h) plan)] at granted
      rw [runTrace_idle (idle_of (by simpa [setBg, trace] using view)
        (traceSettled_bg (x := none) (by simp [setBg]) (by simp)))] at granted
      have run : exec .passGrant s = .next _ :=
        congrArg Host.Outcome.next (happen_granted ready wins granted (by simp [setBg, liftGuard, path]))
      generalize ht : report (setBg none _) = t at run
      refine ⟨t, run, fun x => ?_, fun hh => absurd hh h, fun _ => ?_, ?_, ?_, ?_, fun j => ?_, ?_⟩
      · rw [← readByte_writeWord wf memory, ← mem, ← ht]
        simp [setBg]
      · simp [lifted, ← ht, setBg, liftGuard, trace, path]
      · simp [← ht, setBg, liftGuard, path]
      · simpa [← ht, setBg] using accum
      · simpa [← ht, setBg] using verdict
      · simpa [← ht, setBg] using flags j
      · simp [← ht, setBg, plan, seq, opt, intake, findings, pins]

end Sys2Proof.Machine
end

section
/-! PROOFS. The search over a compare range: the current run after every point, when runs are confirmed, and what the
first confirmed departure decides (O43). -/

namespace Sys2Proof.Machine

/-! ### What the search has found, apart from the current run (R113, R114) -/

/-- The search state, the leading run and the decided result of a comparison record. -/
def found (x : Comparison) : Search × Option Run × Option Decided := (x.search, x.leading, x.decided)

/-- The end of the current run leaves what was found. -/
theorem found_endRun (c : Nat) (x : Comparison) : found (endRun c x) = found x := by
  obtain ⟨search, leading, decided⟩ := endRun_search c x
  simp [found, search, leading, decided]

/-- The result at the end of the range is read from what was found. -/
theorem decidedAtEnd_found {c : Nat} {x y : Comparison} (h : found x = found y) :
    decidedAtEnd c x = decidedAtEnd c y := by
  simp only [found, Prod.mk.injEq] at h
  obtain ⟨search, leading, decided⟩ := h
  simp [decidedAtEnd, search, leading, decided]

/-- What a confirmed run finds depends on what was found before it. -/
theorem found_confirmRun {c : Nat} {floorLevel : Int} {r : Run} {x y : Comparison} (h : found x = found y) :
    found (confirmRun c floorLevel r x) = found (confirmRun c floorLevel r y) := by
  simp only [found, Prod.mk.injEq] at h
  obtain ⟨search, leading, decided⟩ := h
  cases hs : y.search <;> cases hc : r.cls <;> cases hl : y.leading <;>
    simp [confirmRun, found, search, leading, decided, hs, hc, hl]

/-- A confirmed run leaves the current run and the class before. -/
theorem confirmRun_run (c : Nat) (floorLevel : Int) (r : Run) (x : Comparison) :
    (confirmRun c floorLevel r x).run = x.run := by
  unfold confirmRun
  split
  · split <;> rfl
  · split <;> rfl
  · rfl

/-! ### One point (R113) -/

/-- The current run as it goes into a point: a run of another class ends there. -/
def runBefore (cls : PointClass) (x : Comparison) : Option Run := x.run.filter fun r => r.cls = cls

/-- A point that is skipped leaves no current run, and finds nothing. -/
theorem advancePoint_skipped (c : Nat) (floorLevel : Int) (x : Comparison) (i : Nat) (d base : Int) :
    (advancePoint c floorLevel x i .skip d base).run = none ∧
    found (advancePoint c floorLevel x i .skip d base) = found x := by
  rw [advancePoint_skip]
  exact ⟨rfl, rfl⟩

/-- A classed point grows its run, and a run that reaches the confirm length is confirmed. -/
theorem advancePoint_classed (c : Nat) (floorLevel : Int) (x : Comparison) (i : Nat) {cls : PointClass}
    (h : cls ≠ .skip) (d base : Int) :
    let r := growRun c { x with run := runBefore cls x } i cls d base
    (advancePoint c floorLevel x i cls d base).run = some r ∧
    found (advancePoint c floorLevel x i cls d base) =
      if r.length = c then found (confirmRun c floorLevel r x) else found x := by
  obtain ⟨x1, hx1, hrun, hprev, hfound⟩ : ∃ x1 : Comparison,
      (advancePoint c floorLevel x i cls d base =
        let r := growRun c x1 i cls d base
        let x' := { x1 with run := some r }
        { (if r.length = c then confirmRun c floorLevel r x' else x') with prev := some cls }) ∧
      x1.run = runBefore cls x ∧ x1.prev = x.prev ∧ found x1 = found x := by
    unfold runBefore advancePoint
    cases hr : x.run with
    | none => exact ⟨x, by simp only [if_neg h], by simp [hr], rfl, rfl⟩
    | some r =>
      by_cases hc : r.cls = cls
      · exact ⟨x, by simp only [h, hc, ne_eq, not_true, or_self, if_false],
          by simp [hr, hc, Option.filter], rfl, rfl⟩
      · refine ⟨endRun c x, by simp only [if_neg h, hc, ne_eq, not_false_eq_true, or_true, if_true], ?_, ?_,
          found_endRun c x⟩
        · simp [endRun, hr, hc, Option.filter]
        · simp [endRun, hr]
  have grown : growRun c x1 i cls d base = growRun c { x with run := runBefore cls x } i cls d base := by
    simp only [growRun, hrun, hprev]
  intro r
  rw [hx1, grown]
  dsimp only
  by_cases full : r.length = c
  · rw [if_pos full, if_pos full]
    exact ⟨confirmRun_run _ _ _ _, found_confirmRun hfound⟩
  · rw [if_neg full, if_neg full]
    exact ⟨rfl, hfound⟩

/-! ### The current run after every point (R112, R113) -/

/-- The class of the point before index `n`. -/
def classBefore (ps : List ClassedPoint) (n : Nat) : Option PointClass :=
  if n = 0 then none else (ps[n - 1]?).map ClassedPoint.cls

/-- `r` is the run of the points from index `a` up to index `n`, where it ends. -/
structure RunAt (c start : Nat) (ps : List ClassedPoint) (n : Nat) (r : Run) (a : Nat) : Prop where
  ends : n = a + r.length
  pos : 0 < r.length
  start : r.start = start + a
  same : ∀ j < r.length, (ps[a + j]?).map ClassedPoint.cls = some r.cls
  first : classBefore ps a ≠ some r.cls
  sum : keepsSum r.cls = true → r.length ≤ c → r.sum = (((ps.drop a).take r.length).map ClassedPoint.deviation).sum
  base : ∀ p, ps[a]? = some p → r.base = p.base
  before : r.before = classBefore ps a

/-- The current run and the class before, after the points up to index `n`. -/
structure RunsTo (c start : Nat) (ps : List ClassedPoint) (n : Nat) (x : Comparison) : Prop where
  prev : x.prev = classBefore ps n
  skipped : x.run = none → classBefore ps n = none ∨ classBefore ps n = some .skip
  run : ∀ r, x.run = some r → r.cls ≠ .skip ∧ ∃ a, RunAt c start ps n r a

/-- The record after the first `n` points. -/
def searched (c : Nat) (floorLevel : Int) (start : Nat) (ps : List ClassedPoint) (n : Nat) : Comparison :=
  advancePoints c floorLevel (ps.take n) start Comparison.start

/-- A record advanced over a list and one point more. -/
theorem advancePoints_concat (c : Nat) (floorLevel : Int) (l : List ClassedPoint) (p : ClassedPoint) (i : Nat)
    (x : Comparison) : advancePoints c floorLevel (l ++ [p]) i x =
      advancePoint c floorLevel (advancePoints c floorLevel l i x) (i + l.length) p.cls p.deviation p.base := by
  induction l generalizing i x with
  | nil => rfl
  | cons q rest ih =>
    rw [List.cons_append, advancePoints, ih, advancePoints, List.length_cons]
    congr 1
    omega

/-- The record after one point more. -/
theorem searched_succ (c : Nat) (floorLevel : Int) (start : Nat) {ps : List ClassedPoint} {n : Nat} {p : ClassedPoint}
    (h : ps[n]? = some p) : searched c floorLevel start ps (n + 1) =
      advancePoint c floorLevel (searched c floorLevel start ps n) (start + n) p.cls p.deviation p.base := by
  obtain ⟨lt, -⟩ := List.getElem?_eq_some_iff.1 h
  unfold searched
  rw [List.take_add_one, h, Option.toList_some, advancePoints_concat, List.length_take, Nat.min_eq_left (Nat.le_of_lt lt)]

/-- The prev of the record is the class last taken. -/
theorem advancePoint_prev (c : Nat) (floorLevel : Int) (x : Comparison) (i : Nat) (cls : PointClass) (d base : Int) :
    (advancePoint c floorLevel x i cls d base).prev = some cls := rfl

/-- The point before a run's end is of its class. -/
theorem RunAt.classBefore {c start : Nat} {ps : List ClassedPoint} {n a : Nat} {r : Run}
    (h : RunAt c start ps n r a) : classBefore ps n = some r.cls := by
  have ends := h.ends
  have pos := h.pos
  have last := h.same (r.length - 1) (by omega)
  rw [show a + (r.length - 1) = n - 1 by omega] at last
  rw [Machine.classBefore, if_neg (by omega), last]

/-- A point that no run of its class goes into begins a run. -/
theorem runAt_begins {c start : Nat} {ps : List ClassedPoint} {n : Nat} {x : Comparison} {p : ClassedPoint}
    (h : RunsTo c start ps n x) (hp : ps[n]? = some p) (classed : p.cls ≠ .skip) (fresh : runBefore p.cls x = none) :
    RunAt c start ps (n + 1)
      ⟨p.cls, start + n, 1, if keepsSum p.cls then p.deviation else 0, p.base, x.prev⟩ n where
  ends := rfl
  pos := Nat.one_pos
  start := rfl
  same j hj := by
    obtain rfl : j = 0 := Nat.lt_one_iff.1 hj
    simp [hp]
  first := by
    cases run : x.run with
    | none =>
      obtain none | skip := h.skipped run
      · simp [none]
      · rw [skip]
        simpa using classed.symm
    | some r =>
      obtain ⟨-, a, hr⟩ := h.run r run
      rw [hr.classBefore]
      intro same
      simp only [Option.some.injEq] at same
      simp [runBefore, run, Option.filter, same] at fresh
  sum keeps _ := by
    obtain ⟨lt, hget⟩ := List.getElem?_eq_some_iff.1 hp
    have keeps : keepsSum p.cls = true := keeps
    rw [List.drop_eq_getElem_cons lt, hget]
    simp [keeps]
  base q hq := by
    rw [hp] at hq
    cases hq
    rfl
  before := h.prev

/-- A run that goes into a point of its class grows by it. -/
theorem runAt_continues {c start : Nat} {ps : List ClassedPoint} {n a : Nat} {r : Run} {p : ClassedPoint}
    (h : RunAt c start ps n r a) (hp : ps[n]? = some p) (cls : r.cls = p.cls) :
    RunAt c start ps (n + 1) { r with
      length := r.length + 1
      sum := if keepsSum p.cls && r.length < c then r.sum + p.deviation else r.sum } a where
  ends := by
    have ends := h.ends
    dsimp only
    omega
  pos := Nat.succ_pos _
  start := h.start
  same j hj := by
    by_cases old : j < r.length
    · exact h.same j old
    · obtain rfl : j = r.length := by
        dsimp only at hj
        omega
      rw [← h.ends, hp, cls]
      rfl
  first := h.first
  sum keeps within := by
    have keeps : keepsSum r.cls = true := keeps
    have within : r.length + 1 ≤ c := within
    have next : (ps.drop a)[r.length]? = some p := by rw [List.getElem?_drop, ← h.ends, hp]
    dsimp only
    rw [← cls, keeps, List.take_add_one, next, h.sum keeps (by omega)]
    simp [show r.length < c by omega]
  base := h.base
  before := h.before

/-- The run that a classed point begins or continues. -/
theorem runAt_grow {c start : Nat} {ps : List ClassedPoint} {n : Nat} {x : Comparison} {p : ClassedPoint}
    (h : RunsTo c start ps n x) (hp : ps[n]? = some p) (classed : p.cls ≠ .skip) :
    let r := growRun c { x with run := runBefore p.cls x } (start + n) p.cls p.deviation p.base
    r.cls = p.cls ∧ ∃ a, RunAt c start ps (n + 1) r a := by
  unfold growRun
  cases before : runBefore p.cls x with
  | none => exact ⟨rfl, n, runAt_begins (x := x) h hp classed before⟩
  | some r =>
    obtain ⟨run, cls⟩ : x.run = some r ∧ r.cls = p.cls := by
      simpa [runBefore, Option.filter_eq_some_iff] using before
    obtain ⟨-, a, hr⟩ := h.run r run
    exact ⟨cls, a, runAt_continues hr hp cls⟩

/-- The runs of the record after every point. -/
theorem runsTo_searched (c : Nat) (floorLevel : Int) (start : Nat) (ps : List ClassedPoint) {n : Nat}
    (h : n ≤ ps.length) : RunsTo c start ps n (searched c floorLevel start ps n) := by
  induction n with
  | zero => exact ⟨rfl, fun _ => .inl rfl, fun r hr => by cases hr⟩
  | succ n ih =>
    have ih := ih (by omega)
    obtain ⟨p, hp⟩ : ∃ p, ps[n]? = some p := ⟨_, List.getElem?_eq_getElem (by omega)⟩
    have before : classBefore ps (n + 1) = some p.cls := by simp [classBefore, hp]
    rw [searched_succ _ _ _ hp]
    refine ⟨before.symm ▸ rfl, fun none => ?_, fun r hr => ?_⟩
    · by_cases skip : p.cls = .skip
      · exact .inr (by rw [before, skip])
      · rw [(advancePoint_classed c floorLevel _ _ skip _ _).1] at none
        cases none
    · by_cases skip : p.cls = .skip
      · rw [skip, (advancePoint_skipped c floorLevel _ _ _ _).1] at hr
        cases hr
      · rw [(advancePoint_classed c floorLevel _ _ skip _ _).1] at hr
        cases hr
        obtain ⟨cls, run⟩ := runAt_grow ih hp skip
        exact ⟨by rwa [cls], run⟩

/-! ### Runs confirmed (R112, R114) -/

/-- What is found after a classed point, by the length of its run. -/
theorem found_classed (c : Nat) (floorLevel : Int) (start : Nat) {ps : List ClassedPoint} {n : Nat} {p : ClassedPoint}
    (hp : ps[n]? = some p) (classed : p.cls ≠ .skip) : ∃ r a, RunAt c start ps (n + 1) r a ∧ r.cls = p.cls ∧
      found (searched c floorLevel start ps (n + 1)) =
        if r.length = c then found (confirmRun c floorLevel r (searched c floorLevel start ps n))
        else found (searched c floorLevel start ps n) := by
  obtain ⟨lt, -⟩ := List.getElem?_eq_some_iff.1 hp
  obtain ⟨cls, a, run⟩ := runAt_grow (runsTo_searched c floorLevel start ps (Nat.le_of_lt lt)) hp classed
  refine ⟨_, a, run, cls, ?_⟩
  rw [searched_succ _ _ _ hp]
  exact (advancePoint_classed c floorLevel _ _ classed _ _).2

/-- After a point more, something is found only by a run that reaches the confirm length there. -/
theorem found_succ (c : Nat) (floorLevel : Int) (start : Nat) {ps : List ClassedPoint} {n : Nat} (h : n < ps.length) :
    found (searched c floorLevel start ps (n + 1)) = found (searched c floorLevel start ps n) ∨
    ∃ r a, RunAt c start ps (n + 1) r a ∧ r.length = c ∧ r.cls ≠ .skip ∧
      found (searched c floorLevel start ps (n + 1)) =
        found (confirmRun c floorLevel r (searched c floorLevel start ps n)) := by
  obtain ⟨p, hp⟩ : ∃ p, ps[n]? = some p := ⟨_, List.getElem?_eq_getElem h⟩
  by_cases skip : p.cls = .skip
  · rw [searched_succ _ _ _ hp, skip]
    exact .inl (advancePoint_skipped c floorLevel _ _ _ _).2
  · obtain ⟨r, a, run, cls, finds⟩ := found_classed c floorLevel start hp skip
    by_cases full : r.length = c
    · exact .inr ⟨r, a, run, full, by rwa [cls], by rw [finds, if_pos full]⟩
    · exact .inl (by rw [finds, if_neg full])

/-- A run that has reached the confirm length is a stretch of its class. -/
theorem RunAt.stretch {c start : Nat} {ps : List ClassedPoint} {n a : Nat} {r : Run} (h : RunAt c start ps n r a)
    (hn : n ≤ ps.length) (full : r.length = c) : Stretch c r.cls ps a := by
  refine ⟨by have := h.ends; omega, fun j hj => h.same j (by omega)⟩

/-- A stretch that continues no point of its class is confirmed at its last point, by the run that begins with it. -/
theorem found_stretch {c : Nat} (hc : 0 < c) (floorLevel : Int) (start : Nat) {ps : List ClassedPoint} {n : Nat}
    {cls : PointClass} (classed : cls ≠ .skip) (h : Stretch c cls ps n) (first : classBefore ps n ≠ some cls) :
    ∃ r, RunAt c start ps (n + c) r n ∧ r.length = c ∧ r.cls = cls ∧
      found (searched c floorLevel start ps (n + c)) =
        found (confirmRun c floorLevel r (searched c floorLevel start ps (n + (c - 1)))) := by
  obtain ⟨fits, same⟩ := h
  obtain ⟨p, hp⟩ : ∃ p, ps[n + (c - 1)]? = some p := ⟨_, List.getElem?_eq_getElem (by omega)⟩
  have pcls : p.cls = cls := by
    have last := same (c - 1) (by omega)
    rw [hp] at last
    simpa using last
  obtain ⟨r, a, run, rcls, finds⟩ := found_classed c floorLevel start hp (by rwa [pcls])
  rw [show n + (c - 1) + 1 = n + c by omega] at run finds
  have rcls : r.cls = cls := rcls.trans pcls
  have ends := run.ends
  have begins : a = n := by
    rcases Nat.lt_trichotomy a n with lt | eq | gt
    · refine absurd ?_ first
      have before := run.same (n - 1 - a) (by omega)
      rw [show a + (n - 1 - a) = n - 1 by omega, rcls] at before
      rw [classBefore, if_neg (by omega), before]
    · exact eq
    · refine absurd ?_ run.first
      have pos := run.pos
      have before := same (a - 1 - n) (by omega)
      rw [show n + (a - 1 - n) = a - 1 by omega] at before
      rw [classBefore, if_neg (by omega), before, rcls]
  subst begins
  have full : r.length = c := by omega
  exact ⟨r, run, full, rcls, by rw [finds, if_pos full]⟩

/-! ### What the search state waits for (R114) -/

/-- While no departure has been confirmed the search seeks. -/
theorem found_seeking {c : Nat} (floorLevel : Int) (start : Nat) {ps : List ClassedPoint} {n m : Nat}
    (nothing : NothingConfirmed c ps n) (hm : m < n + c) (hl : m ≤ ps.length) :
    found (searched c floorLevel start ps m) = (.seeking, none, none) := by
  induction m with
  | zero => rfl
  | succ m ih =>
    have ih := ih (by omega) (by omega)
    obtain same | ⟨r, a, run, full, classed, finds⟩ := found_succ c floorLevel start (show m < ps.length by omega)
    · rw [same, ih]
    · obtain ⟨low, high, floor⟩ := nothing a (by have := run.ends; omega)
      have stretch := run.stretch hl full
      have search : (searched c floorLevel start ps m).search = .seeking := congrArg Prod.fst ih
      rw [finds, ← ih]
      cases cls : r.cls
      case within => simp [confirmRun, search, cls]
      case skip => exact absurd cls classed
      case low => exact absurd (cls ▸ stretch) low
      case high => exact absurd (cls ▸ stretch) high
      case floor => exact absurd (cls ▸ stretch) floor

/-- What is decided stays. -/
theorem found_decided {c : Nat} (floorLevel : Int) (start : Nat) {ps : List ClassedPoint} {n m : Nat}
    {lead : Option Run} {d : Option Decided} (h : found (searched c floorLevel start ps n) = (.decided, lead, d))
    (hm : n ≤ m) (hl : m ≤ ps.length) : found (searched c floorLevel start ps m) = (.decided, lead, d) := by
  induction m, hm using Nat.le_induction with
  | base => exact h
  | succ m hm ih =>
    have ih := ih (by omega)
    obtain same | ⟨r, a, run, full, classed, finds⟩ := found_succ c floorLevel start (show m < ps.length by omega)
    · rw [same, ih]
    · have search : (searched c floorLevel start ps m).search = .decided := congrArg Prod.fst ih
      rw [finds, ← ih]
      simp [confirmRun, search]

/-- After a confirmed LOW run the search waits for a WITHIN or a FLOOR run that begins after it. -/
theorem found_afterLow {c : Nat} (floorLevel : Int) (start : Nat) {ps : List ClassedPoint} {n m k : Nat} {lead : Run}
    (h : found (searched c floorLevel start ps (n + c)) = (.afterLow, some lead, none))
    (waits : ∀ j, n < j → j < m → ¬ Stretch c .within ps j ∧ ¬ Stretch c .floor ps j)
    (hn : n + c ≤ k) (hk : k < m + c) (hl : k ≤ ps.length) :
    found (searched c floorLevel start ps k) = (.afterLow, some lead, none) := by
  induction k, hn using Nat.le_induction with
  | base => exact h
  | succ k hn ih =>
    have ih := ih (by omega) (by omega)
    obtain same | ⟨r, a, run, full, classed, finds⟩ := found_succ c floorLevel start (show k < ps.length by omega)
    · rw [same, ih]
    · have ends := run.ends
      obtain ⟨within, floor⟩ := waits a (by omega) (by omega)
      have stretch := run.stretch hl full
      have search : (searched c floorLevel start ps k).search = .afterLow := congrArg Prod.fst ih
      rw [finds, ← ih]
      cases cls : r.cls
      case within => exact absurd (cls ▸ stretch) within
      case skip => exact absurd cls classed
      case floor => exact absurd (cls ▸ stretch) floor
      all_goals simp [confirmRun, search, cls]

/-- The result of a compare range is read from what is found at its end. -/
theorem resultOfPoints_found {c : Nat} {floorLevel : Int} {start : Nat} {ps : List ClassedPoint} {x : Comparison}
    (h : found (searched c floorLevel start ps ps.length) = found x) :
    resultOfPoints c floorLevel start ps = decidedAtEnd c x := by
  refine decidedAtEnd_found ((found_endRun _ _).trans ?_)
  rw [← h, searched, List.take_length]

/-- A result decided on the way is the result. -/
theorem resultOfPoints_decided {c : Nat} {floorLevel : Int} {start : Nat} {ps : List ClassedPoint} {n : Nat}
    {lead : Option Run} {d : Decided} (h : found (searched c floorLevel start ps n) = (.decided, lead, some d))
    (hn : n ≤ ps.length) : resultOfPoints c floorLevel start ps = d :=
  resultOfPoints_found (x := ⟨none, none, .decided, lead, some d, 0⟩)
    (found_decided floorLevel start h hn (Nat.le_refl _))

/-- The magnitude of a confirmed run that keeps its sum (R115, R117). -/
theorem runMagnitude_eq {c start : Nat} {ps : List ClassedPoint} {n a : Nat} {r : Run} (h : RunAt c start ps n r a)
    (full : r.length = c) (keeps : keepsSum r.cls = true) : runMagnitude c r =
      max (-2147483646) (min 2147483647 (((ps.drop a).take c |>.map ClassedPoint.deviation).sum.tdiv c)) := by
  rw [runMagnitude, h.sum keeps (by omega), full]
  rfl

/-- The BREAK of a confirmed FLOOR run (R116). -/
theorem breakAt_eq {c start : Nat} {ps : List ClassedPoint} {n a : Nat} {r : Run} {p : ClassedPoint}
    (h : RunAt c start ps n r a) (hp : ps[a]? = some p) (floorLevel : Int) (preceded : Bool) :
    breakAt floorLevel r preceded = ⟨.brk, start + a, max (-2147483646) (min 2147483647 (floorLevel - p.base)),
      decide (0 < a ∧ (ps[a - 1]?).map ClassedPoint.cls = some .high), preceded⟩ := by
  have before : decide (r.before = some .high) = decide (0 < a ∧ (ps[a - 1]?).map ClassedPoint.cls = some .high) := by
    rw [h.before, decide_eq_decide, classBefore]
    split
    · next zero => simp [zero]
    · next some => simp [Nat.pos_of_ne_zero some]
  rw [breakAt, h.start, h.base p hp, before]
  rfl

/-- A stretch that follows a point of its class begins one point earlier too. -/
theorem Stretch.pred {c : Nat} {cls : PointClass} {ps : List ClassedPoint} {m : Nat} (h : Stretch c cls ps m)
    (hm : 0 < m) (before : classBefore ps m = some cls) : Stretch c cls ps (m - 1) := by
  obtain ⟨fits, same⟩ := h
  refine ⟨by omega, fun j hj => ?_⟩
  by_cases zero : j = 0
  · subst zero
    rwa [classBefore, if_neg (by omega)] at before
  · have next := same (j - 1) (by omega)
    rwa [show m + (j - 1) = m - 1 + j by omega] at next

/-- The first WITHIN or FLOOR run confirmed after a LOW run meets the search in the state that the LOW run left. -/
theorem found_afterLow_confirms {c : Nat} (hc : 0 < c) (floorLevel : Int) (start : Nat) {ps : List ClassedPoint}
    {n m : Nat} {lead : Run} {cls : PointClass}
    (h : found (searched c floorLevel start ps (n + c)) = (.afterLow, some lead, none)) (low : Stretch c .low ps n)
    (waits : ∀ j, n < j → j < m → ¬ Stretch c .within ps j ∧ ¬ Stretch c .floor ps j) (hm : n < m)
    (hcls : cls = .within ∨ cls = .floor) (stretch : Stretch c cls ps m) :
    ∃ r, RunAt c start ps (m + c) r m ∧ r.cls = cls ∧ m + c ≤ ps.length ∧
      found (searched c floorLevel start ps (m + c)) =
        found (confirmRun c floorLevel r ⟨none, none, .afterLow, some lead, none, 0⟩) := by
  have fits := stretch.1
  have classed : cls ≠ .skip := by rcases hcls with h | h <;> simp [h]
  have first : classBefore ps m ≠ some cls := fun before => by
    have earlier := stretch.pred (by omega) before
    rcases Nat.lt_or_ge n (m - 1) with after | adjacent
    · obtain ⟨within, floor⟩ := waits (m - 1) after (by omega)
      rcases hcls with h | h
      · exact within (h ▸ earlier)
      · exact floor (h ▸ earlier)
    · obtain rfl : m = n + 1 := by omega
      have cls0 := low.2 0 hc
      rw [classBefore, if_neg (by omega), Nat.add_sub_cancel, ← Nat.add_zero n, cls0] at before
      rcases hcls with h | h <;> simp [h] at before
  obtain ⟨r, run, -, rcls, finds⟩ := found_stretch hc floorLevel start classed stretch first
  exact ⟨r, run, rcls, fits, finds.trans (found_confirmRun
    (found_afterLow floorLevel start h waits (by omega) (by omega) (by omega)))⟩

/-- Settles O43: nothing confirmed; the first confirmed HIGH, FLOOR and LOW run; and what is confirmed after a LOW
run. -/
theorem firstConfirmedRunDecides : Obligations.FirstConfirmedRunDecides := by
  intro c floorLevel start ps hc mean startsAt within floor breakAt'
  -- The state of the search as the first departure is confirmed.
  have confirms : ∀ {cls : PointClass} {n : Nat}, cls ≠ .skip → startsAt cls n → ∃ r, RunAt c start ps (n + c) r n ∧
      r.length = c ∧ r.cls = cls ∧ n + c ≤ ps.length ∧ found (searched c floorLevel start ps (n + c)) =
        found (confirmRun c floorLevel r Comparison.start) := fun {cls n} classed h => by
    obtain ⟨nothing, stretch, first⟩ := h
    obtain ⟨r, run, full, rcls, finds⟩ := found_stretch hc floorLevel start classed stretch (by
      unfold classBefore
      split
      · simp
      · next some => exact first (Nat.pos_of_ne_zero some))
    have fits := stretch.1
    exact ⟨r, run, full, rcls, fits, finds.trans (found_confirmRun
      (found_seeking floorLevel start nothing (by omega) (by omega)))⟩
  refine ⟨fun nothing => ?_, fun n h => ?_, fun n p h hp => ?_, fun n h => ?_⟩
  · exact resultOfPoints_found (x := Comparison.start)
      (found_seeking floorLevel start nothing (by omega) (Nat.le_refl _))
  · obtain ⟨r, run, full, cls, fits, finds⟩ := confirms (by simp) h
    rw [resultOfPoints_decided (lead := some r) (d := ⟨.reflection, r.start, runMagnitude c r, false, false⟩)
      (finds.trans (by simp [confirmRun, Comparison.start, cls, found])) fits, run.start,
      runMagnitude_eq run full (by simp [cls, keepsSum])]
  · obtain ⟨r, run, full, cls, fits, finds⟩ := confirms (by simp) h
    rw [resultOfPoints_decided (lead := some r) (d := breakAt floorLevel r false)
      (finds.trans (by simp [confirmRun, Comparison.start, cls, found])) fits, breakAt_eq run hp]
  · obtain ⟨r, run, full, cls, fits, finds⟩ := confirms (by simp) h
    have low : found (searched c floorLevel start ps (n + c)) = (.afterLow, some r, none) :=
      finds.trans (by simp [confirmRun, Comparison.start, cls, found])
    have magnitude : runMagnitude c r = mean n := runMagnitude_eq run full (by simp [cls, keepsSum])
    refine ⟨fun never => ?_, fun m hm waits => ⟨fun stretch => ?_, fun p stretch hp => ?_⟩⟩
    · rw [resultOfPoints_found (x := ⟨none, none, .afterLow, some r, none, 0⟩)
        (found_afterLow (m := ps.length + 1) floorLevel start low (fun j hj _ => never j hj) fits (by omega)
          (Nat.le_refl _)), ← magnitude, ← run.start]
      rfl
    · obtain ⟨r', -, cls', fits', finds'⟩ :=
        found_afterLow_confirms hc floorLevel start low h.2.1 waits hm (.inl rfl) stretch
      rw [resultOfPoints_decided (lead := some r) (d := ⟨.anomaly, r.start, runMagnitude c r, false, false⟩)
        (finds'.trans (by simp [confirmRun, cls', found])) fits', magnitude, run.start]
    · obtain ⟨r', run', cls', fits', finds'⟩ :=
        found_afterLow_confirms hc floorLevel start low h.2.1 waits hm (.inr rfl) stretch
      rw [resultOfPoints_decided (lead := some r) (d := breakAt floorLevel r' true)
        (finds'.trans (by simp [confirmRun, cls', found])) fits', breakAt_eq run' hp]

end Sys2Proof.Machine
end

section
/-! PROOFS. A result taken with another slot in the acquisition lane, and pairs: what each slot posts, and what becomes of
the inputs (O57). -/

namespace Sys2Proof.Machine

/-! ### Verdicts posted in order (R143, R149) -/

/-- The posting decision moves the slot's entry of the verdict table alone. -/
@[simp] theorem postVerdict_pairs (k : SlotIx) (v : Verdict) (s : State) :
    (postVerdict k v s).verdict.inputs = s.verdict.inputs ∧
    (postVerdict k v s).verdict.judgements = s.verdict.judgements := by
  unfold postVerdict
  dsimp only
  split_ifs <;> simp

/-- The posting decision leaves the other slots' entries of the verdict table. -/
theorem postVerdict_table_other {k j : SlotIx} (h : j ≠ k) (v : Verdict) (s : State) :
    (postVerdict k v s).verdict.table[j] = s.verdict.table[j] := by
  unfold postVerdict
  dsimp only
  split_ifs <;> simp [modifySlot_other _ _ (Ne.symm h)]

/-- A verdict posted where there is one. -/
def postIf (k : SlotIx) (v : Option Verdict) (s : State) : State :=
  match v with
  | some w => postVerdict k w s
  | none => s

/-- A posting, as an entry of the list that a resolution posts. -/
def posting (k : SlotIx) (v : Option Verdict) : List (SlotIx × Verdict) := v.toList.map fun w => (k, w)

/-- Two postings in order, each where there is one. -/
theorem postVerdicts_postings (j k : SlotIx) (v w : Option Verdict) (s : State) :
    postVerdicts (posting j v ++ posting k w) s = postIf k w (postIf j v s) := by
  cases v <;> cases w <;> rfl

/-- A verdict posted where there is one leaves what the statements say of it. -/
theorem postedIf_of {k : SlotIx} {v : Option Verdict} {s t : State} (findings : t.findings = (postIf k v s).findings)
    (verdict : t.verdict = (postIf k v s).verdict) : PostedIf k v s t := by
  cases v with
  | some w => exact verdictPosted_of rfl rfl rfl findings verdict
  | none => exact ⟨findings, verdict⟩

/-- A verdict posted, written out. -/
theorem postIf_eq (k : SlotIx) (v : Option Verdict) (s : State) :
    postIf k v s = { s with verdict := (postIf k v s).verdict, findings := (postIf k v s).findings } := by
  cases v with
  | none => rfl
  | some w =>
    unfold postIf postVerdict
    dsimp only
    split_ifs <;> rfl

/-- A verdict posted moves the verdict table and the findings block alone, but for the mirror. -/
@[simp] theorem postIf_frame (k : SlotIx) (v : Option Verdict) (s : State) :
    (postIf k v s).plan = s.plan ∧ (postIf k v s).seq = s.seq ∧ (postIf k v s).opt = s.opt ∧
    (postIf k v s).intake = s.intake ∧ (postIf k v s).accum = s.accum ∧ (postIf k v s).trace = s.trace ∧
    (postIf k v s).mirror = s.mirror ∧ (postIf k v s).path = s.path ∧ (postIf k v s).mem = s.mem ∧
    (postIf k v s).pins = s.pins ∧ (postIf k v s).freeIndex = s.freeIndex ∧
    (postIf k v s).pending = s.pending := by
  cases v <;> simp [postIf]

/-- A verdict posted leaves the pair record, and the other slots' entries of the verdict table. -/
theorem postIf_verdict (k : SlotIx) (v : Option Verdict) (s : State) :
    (postIf k v s).verdict.inputs = s.verdict.inputs ∧
    (postIf k v s).verdict.judgements = s.verdict.judgements ∧
    ∀ j : SlotIx, j ≠ k → (postIf k v s).verdict.table[j] = s.verdict.table[j] := by
  cases v with
  | some w => exact ⟨(postVerdict_pairs k w s).1, (postVerdict_pairs k w s).2, fun j hj => postVerdict_table_other hj w s⟩
  | none => exact ⟨rfl, rfl, fun _ _ => rfl⟩

/-! ### A pair resolved (R140) -/

/-- A slot's part of a resolution: its input becomes FINAL, with the kind it posts, and it posts that kind. -/
theorem resolvedPart_eq (s : State) (k : SlotIx) (x : PairInput) (o : Option Kind) : resolvedPart s k x o =
    (setInput k (some { x with kind := o.getD x.kind, final := true }) s,
      posting k (o.map (pairedVerdict x s.seq.sweepNumber))) := by
  cases o <;> rfl

/-- Two points lie within a tolerance of each other. -/
theorem pointDistance_le (a b t : Nat) : pointDistance a b ≤ t ↔ a ≤ b + t ∧ b ≤ a + t := by
  unfold pointDistance
  omega

/-- A slot that is no LOSS CANDIDATE posts nothing by a resolution. -/
theorem pairKinds_own (x y : PairInput) (tolerance ratio : Nat) :
    (x.kind ≠ .lossCandidate → (pairKinds x y tolerance ratio).1 = none) ∧
    (y.kind ≠ .lossCandidate → (pairKinds x y tolerance ratio).2 = none) := by
  unfold pairKinds
  constructor <;> intro h <;> split_ifs <;> simp_all

/-- Both inputs of a pair stored FINAL, each with the kind its slot posts (R140). -/
def inputsStored (short long : SlotIx) (x y : PairInput) (kinds : Option Kind × Option Kind) (s : State) : State :=
  { s with
    verdict.inputs := (s.verdict.inputs.set short (some { x with kind := kinds.1.getD x.kind, final := true })).set
      long (some { y with kind := kinds.2.getD y.kind, final := true }) }

/-- An input of the pair stored before is replaced. -/
theorem inputsStored_again {short long j : SlotIx} (h : j = short ∨ j = long) (x y : PairInput)
    (kinds : Option Kind × Option Kind) (z : Option PairInput) (s : State) :
    inputsStored short long x y kinds (setInput j z s) = inputsStored short long x y kinds s := by
  unfold inputsStored setInput
  dsimp only
  refine congrArg (fun i => { s with verdict.inputs := i }) (Vector.ext fun i hi => ?_)
  rcases h with h | h <;> subst h <;> simp only [Vector.getElem_set] <;> split_ifs <;> rfl

/-- A resolution stores both inputs and posts, the short slot first. -/
theorem resolvePair_eq {short long : SlotIx} {x y : PairInput} {own : SlotIx → List (SlotIx × Verdict)} {s : State}
    {v w : Option Verdict} {kinds : Option Kind × Option Kind}
    (hk : kinds = pairKinds x y (recPairTolerance (activeRecord s long)) (recBendRatio (activeRecord s long)))
    (hv : own short ++ posting short (kinds.1.map (pairedVerdict x s.seq.sweepNumber)) = posting short v)
    (hw : own long ++ posting long (kinds.2.map (pairedVerdict y s.seq.sweepNumber)) = posting long w) :
    resolvePair short long x y own s = postIf long w (postIf short v (inputsStored short long x y kinds s)) := by
  rw [← postVerdicts_postings, ← hv, ← hw]
  unfold resolvePair
  dsimp only
  rw [← hk, resolvedPart_eq, resolvedPart_eq]
  simp only [setInput, inputsStored, List.append_assoc]

/-! ### The relation of a slot (R135) -/

/-- A slot without an honoured partner is UNPAIRED. -/
theorem relation_unpaired {s : State} {k : SlotIx} (h : s.verdict.judgements[k] = .unpaired) :
    relation s k = .unpaired := by
  simp only [relation, h]

/-- The relation of a slot that names a partner, by the partner's judgement. -/
theorem relation_names {s : State} {k p : SlotIx} (h : s.verdict.judgements[k] = .names p) :
    (s.verdict.judgements[p] = .notEntered → relation s k = .openTo p) ∧
    (s.verdict.judgements[p] = .names k → relation s k = .formed p) ∧
    (s.verdict.judgements[p] ≠ .notEntered → s.verdict.judgements[p] ≠ .names k → relation s k = .broken) := by
  unfold relation
  simp only [h]
  refine ⟨fun hp => by simp only [hp], fun hp => by simp only [hp, if_true], fun hn hk => ?_⟩
  cases hp : s.verdict.judgements[p] with
  | notEntered => exact absurd hp hn
  | unpaired => rfl
  | names c =>
    have other : c ≠ k := fun e => hk (by rw [hp, e])
    simp only [if_neg other]

/-! ### A result taken (R33, R136) -/

/-- The outcome of a slot whose result is taken, as the statements give it (R33). -/
theorem outcomeOf_eq (r : Result) : outcomeOf r = takenOutcome r := by
  unfold outcomeOf takenOutcome
  cases r.kind <;> rfl

/-- The state in which a result is off the comparison lane. -/
theorem takePosted_eq {k : SlotIx} {r : Result} {s : State} (comp : s.seq.comp = some ⟨k, .posting r⟩) :
    takePosted s = report (liftGuard .run k (setOutcome k (takenOutcome r) { verdictTake k r s with seq.comp := none })) := by
  unfold takePosted
  rw [comp]
  dsimp only
  rw [outcomeOf_eq]

/-- A result taken leaves the comparison lane, and what the Verdict Unit does is left. -/
theorem resultOff_of {k : SlotIx} {r : Result} {s t : State} (comp : s.seq.comp = some ⟨k, .posting r⟩)
    (ht : t = report (takePosted s)) : ResultOff k r s t ∧ t.findings = (verdictTake k r s).findings ∧
      t.verdict = (verdictTake k r s).verdict := by
  rw [takePosted_eq comp] at ht
  refine ⟨⟨?_, ?_, ?_⟩, ?_, ?_⟩
  all_goals simp [ht, setOutcome, liftGuard]

/-- A result taken while a slot is under way in the acquisition lane: nothing else follows. -/
theorem exec_takeResult {k : SlotIx} {r : Result} {l : AcqLane} {s : State} (ready : EventReady s) (idle : TraceIdle s)
    (comp : s.seq.comp = some ⟨k, .posting r⟩) (lane : s.seq.acq = some l) (busy : ∀ h, l.phase ≠ .awaiting h) :
    ∃ t, exec .takeResult s = .next t ∧ ResultOff k r s t ∧ t.findings = (verdictTake k r s).findings ∧
      t.verdict = (verdictTake k r s).verdict := by
  have calls : laneCalls (takePosted s) = false := by
    have acq : (takePosted s).seq.acq = some l := by simpa using lane
    unfold laneCalls
    rw [acq]
    obtain ⟨j, phase⟩ := l
    cases phase
    case awaiting h => exact absurd rfl (busy h)
    all_goals simp
  have settled : Settled (takePosted s) := ⟨calls, by simp [sweepOver, lane], traceIdle_of idle (by simp)⟩
  refine ⟨_, ?_, resultOff_of comp rfl⟩
  exact congrArg Host.Outcome.next (happen_eq ready (advance_settled settled) (by simp))

/-- The input made of a result, as the statements give it (R136). -/
theorem inputOf_eq (r : Result) (final : Bool) : inputOf r final =
    ⟨r.kind, r.location, r.magnitude, final, r.masked.saturated || r.masked.gap || r.masked.clipped⟩ := by
  unfold inputOf CondSet.isEmpty
  cases r.masked.saturated <;> cases r.masked.gap <;> cases r.masked.clipped <;> rfl

/-- The kinds stored as their own kind (R137). -/
theorem storedKind_iff (kind : Kind) :
    storedKind kind = true ↔ kind = .clear ∨ kind = .reflection ∨ kind = .brk ∨ kind = .anomaly := by
  cases kind <;> simp [storedKind]

/-- The table of a resolution (R140). -/
theorem pairKinds_table (x y : PairInput) (tolerance ratio : Nat) :
    let within := x.location ≤ y.location + tolerance ∧ y.location ≤ x.location + tolerance
    let bends := ratio * x.magnitude.natAbs ≤ y.magnitude.natAbs * 16
    let own (k : Kind) := k = .reflection ∨ k = .brk ∨ k = .anomaly
    (x.kind = .lossCandidate → y.kind = .lossCandidate →
      pairKinds x y tolerance ratio =
        if within ∧ bends then (some .bend, some .bend) else (some .loss, some .loss)) ∧
    (x.kind = .clear → y.kind = .lossCandidate → pairKinds x y tolerance ratio = (none, some .bend)) ∧
    (x.kind = .lossCandidate → y.kind = .clear ∨ own y.kind →
      pairKinds x y tolerance ratio = (some .loss, none)) ∧
    (own x.kind → y.kind = .lossCandidate → pairKinds x y tolerance ratio = (none, some .loss)) := by
  intro within bends own
  refine ⟨fun hx hy => ?_, fun hx hy => by simp [pairKinds, hx, hy], fun hx hy => ?_, fun hx hy => ?_⟩
  · have near : pointDistance x.location y.location ≤ tolerance ↔ within := pointDistance_le _ _ _
    unfold pairKinds
    rw [if_pos ⟨hx, hy⟩]
    by_cases hw : within
    · rw [if_pos (near.2 hw)]
      exact if_congr (by simp [hw, bends]) rfl rfl
    · rw [if_neg fun h => hw (near.1 h), if_neg fun h => hw h.1]
  · rcases hy with hy | hy | hy | hy <;> simp [pairKinds, hx, hy]
  · rcases hx with hx | hx | hx <;> simp [pairKinds, hx, hy]

/-- What two inputs resolved against each other leave of the pair record and of the other slots. -/
theorem resolvePair_leaves {short long : SlotIx} (x y : PairInput) (s : State) (h : short ≠ long) :
    let kinds := pairKinds x y (recPairTolerance (activeRecord s long)) (recBendRatio (activeRecord s long))
    let u := resolvePair short long x y (fun _ => []) s
    u.verdict.inputs[short] = some { x with kind := kinds.1.getD x.kind, final := true } ∧
    u.verdict.inputs[long] = some { y with kind := kinds.2.getD y.kind, final := true } ∧
    ∀ k : SlotIx, k ≠ short → k ≠ long →
      u.verdict.inputs[k] = s.verdict.inputs[k] ∧ u.verdict.table[k] = s.verdict.table[k] := by
  intro kinds u
  obtain ⟨v, hv⟩ : ∃ v, v = kinds.1.map (pairedVerdict x s.seq.sweepNumber) := ⟨_, rfl⟩
  obtain ⟨w, hw⟩ : ∃ w, w = kinds.2.map (pairedVerdict y s.seq.sweepNumber) := ⟨_, rfl⟩
  have resolved : u = postIf long w (postIf short v (inputsStored short long x y kinds s)) :=
    resolvePair_eq rfl (by rw [hv]; rfl) (by rw [hw]; rfl)
  obtain ⟨inputs, -, table⟩ := postIf_verdict long w (postIf short v (inputsStored short long x y kinds s))
  obtain ⟨inputs', -, table'⟩ := postIf_verdict short v (inputsStored short long x y kinds s)
  have stored : u.verdict.inputs = (inputsStored short long x y kinds s).verdict.inputs := by
    rw [resolved, inputs, inputs']
  unfold inputsStored at stored
  have apart : (long : Nat) ≠ short := Fin.val_ne_of_ne h.symm
  refine ⟨?_, ?_, fun k hs hl => ⟨?_, ?_⟩⟩
  · rw [stored]
    simp [apart]
  · rw [stored]
    simp
  · rw [stored]
    simp [Fin.val_ne_of_ne hs.symm, Fin.val_ne_of_ne hl.symm]
  · rw [resolved, table k hl, table' k hs]
    rfl

/-- A result that meets its partner's input: both are resolved, the short slot's posting first, each slot posting what
`posts` says. -/
theorem resolveAgainst_eq {k p : SlotIx} {x y : PairInput} {own : SlotIx → List (SlotIx × Verdict)} {s : State}
    {posts : SlotIx → PairInput → Option Kind → Option Verdict}
    (hposts : ∀ (j : SlotIx) (z : PairInput) (kind : Option Kind),
      (j = k → z = x ∧ (x.kind ≠ .lossCandidate → kind = none)) →
      own j ++ posting j (kind.map (pairedVerdict z s.seq.sweepNumber)) = posting j (posts j z kind)) (hkp : k ≠ p) :
    let first := (recSource (activeRecord s k)).toNat < (recSource (activeRecord s p)).toNat
    let short := if first then k else p
    let long := if first then p else k
    let xs := if first then x else y
    let xl := if first then y else x
    let kinds := pairKinds xs xl (recPairTolerance (activeRecord s long)) (recBendRatio (activeRecord s long))
    resolveAgainst k p x y own (setInput k (some x) s) =
      postIf long (posts long xl kinds.2) (postIf short (posts short xs kinds.1)
        (inputsStored short long xs xl kinds s)) := by
  intro first short long xs xl kinds
  obtain ⟨ownKinds, ownKinds'⟩ := pairKinds_own xs xl (recPairTolerance (activeRecord s long))
    (recBendRatio (activeRecord s long))
  have again : inputsStored short long xs xl kinds (setInput k (some x) s) = inputsStored short long xs xl kinds s :=
    inputsStored_again (by by_cases h : first <;> simp [short, long, h]) _ _ _ _ _
  have pair : resolveAgainst k p x y own (setInput k (some x) s) =
      resolvePair short long xs xl own (setInput k (some x) s) := by
    by_cases h : first
    · have shorter : isShort (setInput k (some x) s) k p = true := decide_eq_true h
      simp only [resolveAgainst, shorter, if_true, short, long, xs, xl, if_pos h]
    · have longer : isShort (setInput k (some x) s) k p = false := decide_eq_false h
      simp only [resolveAgainst, longer, Bool.false_eq_true, if_false, short, long, xs, xl, if_neg h]
  rw [pair, ← again]
  refine resolvePair_eq rfl (hposts short xs _ fun hk => ?_) (hposts long xl _ fun hk => ?_)
  · have h : first := by
      by_contra h
      simp only [short, if_neg h] at hk
      exact hkp hk.symm
    have same : xs = x := if_pos h
    exact ⟨same, fun other => ownKinds (by rwa [same])⟩
  · have h : ¬ first := fun h => by
      simp only [long, if_pos h] at hk
      exact hkp hk.symm
    have same : xl = x := if_neg h
    exact ⟨same, fun other => ownKinds' (by rwa [same])⟩

/-- A LOSS CANDIDATE that meets no input of its partner is stored, and nothing is posted (R138). -/
theorem takeCandidate_alone {k p : SlotIx} {r : Result} {formed : Bool} {s : State}
    (h : formed = false ∨ s.verdict.inputs[p] = none) :
    takeCandidate k r p formed s = setInput k (some (inputOf r false)) s := by
  unfold takeCandidate
  dsimp only
  split
  · next y hy =>
    rcases h with h | h
    · rw [h]
      rfl
    · rw [h] at hy
      cases hy
  · rfl

/-- A result stored as its own kind that meets no PENDING input of its partner is posted by itself (R137). -/
theorem takeStored_alone {k p : SlotIx} {r : Result} {formed : Bool} {s : State}
    (h : formed = false ∨ ∀ y, s.verdict.inputs[p] = some y → y.final = true) :
    takeStored k r p formed s = postVerdict k (unpairedVerdict r) (setInput k (some (inputOf r true)) s) := by
  unfold takeStored
  dsimp only
  rw [verdictOf_eq]
  split
  · next y hy =>
    refine if_neg ?_
    rcases h with h | h
    · simp [h]
    · simp [h y hy]
  · rfl

/-- What the Verdict Unit does with a result of a slot whose relation is FORMED or OPEN, by its kind. -/
theorem verdictTake_related {k p : SlotIx} {r : Result} {s : State} {formed : Bool}
    (h : relation s k = if formed then .formed p else .openTo p) : verdictTake k r s =
      if r.kind = .lossCandidate then takeCandidate k r p formed s
      else if storedKind r.kind then takeStored k r p formed s else postVerdict k (unpairedVerdict r) s := by
  unfold verdictTake
  rw [h, verdictOf_eq]
  cases formed <;> rfl

/-- A result of a slot that is UNPAIRED or whose pair is BROKEN is posted by itself (R136, R139). -/
theorem verdictTake_alone {k : SlotIx} {r : Result} {s : State} (h : relation s k = .unpaired ∨ relation s k = .broken) :
    verdictTake k r s = postVerdict k (unpairedVerdict r) s := by
  unfold verdictTake
  rcases h with h | h <;> rw [h, verdictOf_eq]

/-- Settles O57: the table; the resolution of two inputs; a result taken, by the relation and the partner's input. -/
theorem pairResolved : Obligations.PairResolved := by
  refine ⟨pairKinds_table, fun short long x y s h => resolvePair_leaves x y s h, ?_⟩
  intro k p r l s ready idle comp lane busy names hkp candidate stored opens formed x withInput
  obtain ⟨t, next, off, findings, verdict⟩ := exec_takeResult ready idle comp lane busy
  obtain ⟨opensTo, formedBy, broken⟩ := relation_names names
  have isStored : storedKind r.kind = true ↔ stored := storedKind_iff r.kind
  have apart : stored → ¬ candidate := fun hs hc => by
    rcases hs with h | h | h | h <;> rw [show r.kind = .lossCandidate from hc] at h <;> cases h
  have input : ∀ final, final = decide stored → inputOf r final = x := fun final h => by rw [inputOf_eq, h]
  have pending : candidate → inputOf r false = x := fun hc => input _ (decide_eq_false fun hs => apart hs hc).symm
  have done : stored → inputOf r true = x := fun hs => input _ (decide_eq_true hs).symm
  have related : ∀ b : Bool, relation s k = (if b then .formed p else .openTo p) →
      (candidate → verdictTake k r s = takeCandidate k r p b s) ∧
      (stored → verdictTake k r s = takeStored k r p b s) ∧
      (¬ candidate → ¬ stored → verdictTake k r s = postVerdict k (unpairedVerdict r) s) := fun b h => by
    rw [verdictTake_related h]
    exact ⟨fun hc => if_pos hc, fun hs => (if_neg (apart hs)).trans (if_pos (isStored.2 hs)),
      fun hc hs => (if_neg hc).trans (if_neg fun h => hs (isStored.1 h))⟩
  refine ⟨fun hc hp => ?_, fun hs hp => ?_, fun hn => ?_, fun y hf hy hc => ?_⟩
  · have taken : verdictTake k r s = setInput k (some x) s := by
      rw [← pending hc]
      rcases hp with ho | ⟨hf, none⟩
      · exact ((related false (opensTo ho)).1 hc).trans (takeCandidate_alone (.inl rfl))
      · exact ((related true (formedBy hf)).1 hc).trans (takeCandidate_alone (.inr none))
    exact ⟨t, next, off, by rw [verdict, taken]; rfl, by rw [findings, taken]; rfl⟩
  · have taken : verdictTake k r s = postVerdict k (unpairedVerdict r) (setInput k (some x) s) := by
      rw [← done hs]
      rcases hp with ho | ⟨hf, final⟩
      · exact ((related false (opensTo ho)).2.1 hs).trans (takeStored_alone (.inl rfl))
      · exact ((related true (formedBy hf)).2.1 hs).trans (takeStored_alone (.inr final))
    exact ⟨t, next, off, verdictPosted_of rfl rfl rfl (by rw [findings, taken]; rfl) (by rw [verdict, taken]; rfl)⟩
  · have taken : verdictTake k r s = postVerdict k (unpairedVerdict r) s := by
      by_cases ho : opens
      · obtain ⟨hc, hs⟩ := hn.resolve_right fun h => h.1 ho
        exact (related false (opensTo ho)).2.2 hc hs
      · by_cases hf : formed
        · obtain ⟨hc, hs⟩ := hn.resolve_right fun h => h.2 hf
          exact (related true (formedBy hf)).2.2 hc hs
        · exact verdictTake_alone (.inr (broken ho hf))
    exact ⟨t, next, off, verdictPosted_of rfl rfl rfl (by rw [findings, taken]) (by rw [verdict, taken])⟩
  · intro first short long xs xl kinds final posts u
    obtain ⟨candidateTakes, storedTakes, -⟩ := related true (formedBy hf)
    have taken : verdictTake k r s = postIf long (posts long xl kinds.2) (postIf short (posts short xs kinds.1) u) := by
      by_cases isCandidate : candidate
      · have against : takeCandidate k r p true s = resolveAgainst k p x y (fun _ => []) (setInput k (some x) s) := by
          simp only [takeCandidate, hy, if_true, pending isCandidate]
        rw [candidateTakes isCandidate, against]
        refine resolveAgainst_eq (posts := posts) (fun j z kind _ => ?_) hkp
        simp only [posts, List.nil_append]
        rw [if_neg fun h => h.2 isCandidate]
      · obtain ⟨hs, waits⟩ := hc.resolve_left isCandidate
        have against : takeStored k r p true s = resolveAgainst k p x y
            (fun j => if j = k then [(k, verdictOf r)] else []) (setInput k (some x) s) := by
          simp only [takeStored, hy, waits, Bool.not_false, Bool.and_self, if_true, done hs]
        rw [storedTakes hs, against]
        refine resolveAgainst_eq (posts := posts) (fun j z kind hz => ?_) hkp
        by_cases hj : j = k
        · obtain ⟨-, none⟩ := hz hj
          rw [none isCandidate, hj]
          simp [posts, posting, isCandidate, verdictOf_eq]
        · simp [posts, hj]
    refine ⟨postIf short (posts short xs kinds.1) u, t, next, off, postIf_eq _ _ _, postedIf_of rfl rfl,
      postedIf_of ?_ ?_⟩
    · rw [findings, taken]
    · rw [verdict, taken]

end Sys2Proof.Machine
end

section
/-! PROOFS. Offers of the acquisition lane, and a sweep's start with its first offer (R28 to R30). -/

namespace Sys2Proof.Machine

/-! ### A slot takes the lane (R30, R47, R50, R79, R91, R92) -/

/-- Slot `k` has taken the acquisition lane, before the test of SETTLING (R30 step 6). -/
def entered (k : SlotIx) (s : State) : State :=
  opticalEntry k (beginRun k (recordJudgement k (judgePartner s k) (setOutcome k .notRun { s with
    seq.cursor := k.val + 1
    seq.entered := true
    seq.acq := some ⟨k, .settling⟩ })))

/-- The switch after a slot's selection: its port selected, and UNSETTLED where it was so or the port changes (R47). -/
theorem selectPort_opt (p : BitVec 6) (s : State) : (selectPort p s).opt.port = p ∧
    ((selectPort p s).opt.settled = true → p = s.opt.port ∧ s.opt.settled = true) ∧
    (selectPort p s).opt.warm = s.opt.warm := by
  unfold selectPort
  split
  · next h => exact ⟨h.1.symm, fun _ => h, rfl⟩
  · exact ⟨rfl, fun h => by simp at h, rfl⟩

/-- The warm state of a source, by its number. -/
theorem warmOf_eq (s : State) (source : BitVec 2) : warmOf s source = sourceState s source.toNat := rfl

/-- A source entered upon turns WARMING from COLD, where it exists (R50). -/
theorem warmOf_warmSource (source : BitVec 2) (s : State) : warmOf (warmSource source s) source =
    if warmOf s source = .cold ∧ source ≠ 3 then .warming else warmOf s source := by
  have number := source.isLt
  unfold warmSource
  by_cases cold : warmOf s source = .cold
  · rw [if_pos cold, warmOf_eq, sourceState_set (s := { s with opt.warm := coldOthers source s.opt.warm }) rfl]
    by_cases h : source = 3
    · subst h
      rw [if_neg (by simp), if_neg (by simp), cold]
      rfl
    · have three : source.toNat ≠ 3 := fun e => h (BitVec.eq_of_toNat_eq e)
      rw [if_pos ⟨rfl, by omega⟩, if_pos ⟨cold, h⟩]
  · rw [if_neg cold, if_neg fun h => cold h.1]
    rfl

/-- A source's warming leaves the switch (R50). -/
theorem warmSource_settled (source : BitVec 2) (s : State) : (warmSource source s).opt.settled = s.opt.settled := by
  unfold warmSource
  split <;> rfl

/-- What Optical Control takes up for a slot that enters SETTLING (R47, R50, R58). -/
theorem opticalEntry_opt (k : SlotIx) (s : State) :
    (opticalEntry k s).opt.port = recPort (activeRecord s k) ∧ (opticalEntry k s).opt.nextSeq = 0 ∧
    (opticalEntry k s).opt.spacingTimer = none ∧ (opticalEntry k s).opt.dutyCount = s.opt.dutyCount ∧
    ((opticalEntry k s).opt.settled = true → recPort (activeRecord s k) = s.opt.port ∧ s.opt.settled = true) ∧
    warmOf (opticalEntry k s) (recSource (activeRecord s k)) =
      if warmOf s (recSource (activeRecord s k)) = .cold ∧ recSource (activeRecord s k) ≠ 3 then .warming
      else warmOf s (recSource (activeRecord s k)) := by
  obtain ⟨s1, hs1, opt⟩ : ∃ s1, s1 = (if headerFirstFire (activeHeader s) then s else { s with opt.testActive := true }) ∧
      s1.opt = { s.opt with testActive := s1.opt.testActive } := by
    refine ⟨_, rfl, ?_⟩
    split <;> rfl
  obtain ⟨port, settled, warm⟩ := selectPort_opt (recPort (activeRecord s k)) s1
  have heated := warmOf_warmSource (recSource (activeRecord s k)) (selectPort (recPort (activeRecord s k)) s1)
  have same : warmOf (selectPort (recPort (activeRecord s k)) s1) (recSource (activeRecord s k)) =
      warmOf s (recSource (activeRecord s k)) := by
    unfold warmOf
    rw [warm, opt]
  rw [same] at heated
  unfold opticalEntry
  dsimp only
  rw [← hs1]
  refine ⟨?_, rfl, rfl, ?_, fun h => ?_, heated⟩
  · simpa using port
  · have duty : s1.opt.dutyCount = s.opt.dutyCount := by rw [opt]
    simp [duty]
  · have switch : (selectPort (recPort (activeRecord s k)) s1).opt.settled = true :=
      (warmSource_settled _ _).symm.trans h
    obtain ⟨h1, h2⟩ := settled switch
    rw [opt] at h1 h2
    exact ⟨h1, h2⟩

/-- What slot `k`'s entry leaves of every block but the Verdict Unit and the findings block. -/
theorem entered_frame (k : SlotIx) (s : State) :
    (entered k s).seq = { s.seq with
      cursor := k.val + 1, entered := true, acq := some ⟨k, .settling⟩, outcomes := s.seq.outcomes.set k .notRun } ∧
    (entered k s).path = { s.path with
      guards := s.path.guards ++ [⟨.run, k, recAccBase (activeRecord s k), recPoints (activeRecord s k)⟩] } ∧
    (entered k s).intake = { s.intake with
      accepted := s.intake.accepted.set k 0, rejected := s.intake.rejected.set k 0, lost := s.intake.lost.set k 0
      lastReject := s.intake.lastReject.set k .none, failures := 0 } ∧
    (entered k s).accum = { s.accum with
      ready := s.accum.ready.set k false, clippedContent := s.accum.clippedContent.set k false } ∧
    (entered k s).trace = { s.trace with
      seen := s.trace.seen.set k CondSet.empty, clipNote := s.trace.clipNote.set k false } ∧
    (entered k s).plan = s.plan ∧ (entered k s).mem = s.mem ∧ (entered k s).pins = s.pins := by
  refine ⟨?_, ?_, ?_, ?_, ?_, ?_, ?_, ?_⟩
  all_goals simp [entered, setOutcome, beginRun, activeRecord, placeGuard]

/-- What slot `k`'s entry leaves of Optical Control. -/
theorem entered_opt (k : SlotIx) (s : State) :
    (entered k s).opt.port = recPort (activeRecord s k) ∧ (entered k s).opt.nextSeq = 0 ∧
    (entered k s).opt.spacingTimer = none ∧ (entered k s).opt.dutyCount = s.opt.dutyCount ∧
    ((entered k s).opt.settled = true → recPort (activeRecord s k) = s.opt.port ∧ s.opt.settled = true) ∧
    warmOf (entered k s) (recSource (activeRecord s k)) =
      if warmOf s (recSource (activeRecord s k)) = .cold ∧ recSource (activeRecord s k) ≠ 3 then .warming
      else warmOf s (recSource (activeRecord s k)) := by
  obtain ⟨v, hv⟩ : ∃ v, v = beginRun k (recordJudgement k (judgePartner s k) (setOutcome k .notRun { s with
      seq.cursor := k.val + 1
      seq.entered := true
      seq.acq := some ⟨k, .settling⟩ })) := ⟨_, rfl⟩
  have opt : v.opt = s.opt := by simp [hv]
  have record : activeRecord v k = activeRecord s k := by simp [activeRecord, hv]
  have optical := opticalEntry_opt k v
  rw [record, opt] at optical
  have warm : warmOf v (recSource (activeRecord s k)) = warmOf s (recSource (activeRecord s k)) := by
    unfold warmOf
    rw [opt]
  rw [warm] at optical
  unfold entered
  rwa [← hv]

/-- A slot that takes the lane with the switch to settle or its source to warm stays in SETTLING (R51). -/
theorem settlingTest_entered {k : SlotIx} {s : State} (h : recPort (activeRecord s k) ≠ s.opt.port ∨
    s.opt.settled = false ∨ warmOf s (recSource (activeRecord s k)) ≠ .warm) :
    settlingTest (report (entered k s)) = report (entered k s) := by
  obtain ⟨seq, -, -, -, -, plan, -, -⟩ := entered_frame k s
  obtain ⟨-, -, -, -, settles, warm⟩ := entered_opt k s
  refine settlingTest_waits fun j lane settled => ?_
  obtain rfl : j = k := by simpa [seq, eq_comm] using lane
  obtain ⟨port, already⟩ := settles (by simpa using settled)
  have cold := (h.resolve_left fun h => h port).resolve_left (by simp [already])
  have record : activeRecord (report (entered j s)) j = activeRecord s j := by simp [activeRecord, plan]
  have same : warmOf (report (entered j s)) = warmOf (entered j s) := by
    funext source
    simp [warmOf]
  rw [record, same, warm]
  split
  · simp
  · exact cold

/-! ### Offers (R30) -/

/-- The record of a slot whose edit does not wait stays as it is at the slot's entry (R9). -/
theorem applyAtEntry_clean {k : SlotIx} {s : State} (h : holdFlag s = true ∨ s.plan.recordDirty[k] = false) :
    applyAtEntry k s = s := by
  unfold applyAtEntry applyRecordIfDue
  rcases h with h | h <;> simp [h]

/-- The plan check does not read the partner-ignored flags. -/
theorem planCheck_setPartnerIgnored (k j : SlotIx) (s : State) : planCheck (setPartnerIgnored k s) j = planCheck s j := rfl

/-- A slot that can take the lane takes it and settles there (R30). -/
theorem offerSlot_enters {k : SlotIx} {s : State} (h : NextSlotSettles k s) :
    offerSlot k s = report (entered k (setPartnerIgnored k s)) := by
  unfold offerSlot
  rw [applyAtEntry_clean h.record]
  dsimp only
  rw [if_pos h.enabled, planCheck_setPartnerIgnored, if_pos h.check]
  exact settlingTest_entered h.unsettled

/-- A disabled slot ends the slot order (R30). -/
theorem offerSlot_disabled {k : SlotIx} {s : State} (clean : holdFlag s = true ∨ s.plan.recordDirty[k] = false)
    (h : recEnable (activeRecord s k) = false) : offerSlot k s = { s with seq.orderEnded := true } := by
  unfold offerSlot
  rw [applyAtEntry_clean clean]
  dsimp only
  rw [if_neg (by simp [h])]

/-- A slot that fails the plan check takes PLAN FAULT (R30). -/
theorem offerSlot_fails {k : SlotIx} {s : State} (clean : holdFlag s = true ∨ s.plan.recordDirty[k] = false)
    (h : recEnable (activeRecord s k) = true) (check : planCheck s k = false) : offerSlot k s =
      report (setOutcome k .planFault { setPartnerIgnored k s with seq.cursor := k.val + 1 }) := by
  unfold offerSlot
  rw [applyAtEntry_clean clean]
  dsimp only
  rw [if_pos h, planCheck_setPartnerIgnored, if_neg (by simp [check])]

/-! ### Moves and offers in their order (R30, R32) -/

/-- A move or offer that is called for is made. -/
theorem lanes_step {s : State} (h : laneCalls s = true) (n : Nat) : lanes (n + 1) s = lanes n (laneMove s) := by
  simp [lanes, h]

/-- With the acquisition lane empty and neither mark set, the lane is offered. -/
theorem laneCalls_empty {s : State} (state : s.seq.state = .sweeping) (acq : s.seq.acq = none)
    (order : s.seq.orderEnded = false) (quiet : s.seq.quietEnd = false) : laneCalls s = true := by
  simp [laneCalls, state, acq, order, quiet]

/-- An empty acquisition lane is offered to the slot at the cursor. -/
theorem laneMove_offers {s : State} (acq : s.seq.acq = none) {k : SlotIx} (cursor : s.seq.cursor = k.val) :
    laneMove s = offerSlot k s := by
  have lt : s.seq.cursor < 24 := by
    rw [cursor]
    exact k.isLt
  unfold laneMove offerLane
  rw [acq]
  dsimp only
  rw [dif_pos lt]
  exact congrArg (fun j => offerSlot j s) (Fin.ext cursor)

/-- A slot in SETTLING calls for nothing. -/
theorem laneCalls_settling {s : State} {k : SlotIx} (h : s.seq.acq = some ⟨k, .settling⟩) : laneCalls s = false := by
  simp [laneCalls, h]

/-- A slot that can take the lane at the cursor takes it, and nothing more is called for. -/
theorem lanes_enters {s : State} {k : SlotIx} (state : s.seq.state = .sweeping) (acq : s.seq.acq = none)
    (order : s.seq.orderEnded = false) (quiet : s.seq.quietEnd = false) (cursor : s.seq.cursor = k.val)
    (h : NextSlotSettles k s) (n : Nat) : lanes (n + 1) s = report (entered k (setPartnerIgnored k s)) := by
  rw [lanes_step (laneCalls_empty state acq order quiet), laneMove_offers acq cursor, offerSlot_enters h]
  refine lanes_idle (laneCalls_settling (k := k) ?_) n
  obtain ⟨seq, -⟩ := entered_frame k (setPartnerIgnored k s)
  simp [seq]

end Sys2Proof.Machine
end

section
/-! PROOFS. A sweep's start and a sweep's end, as the statements say them, and each way to start a sweep (O14). -/

namespace Sys2Proof.Machine

/-! ### What an answer shows of the state it follows -/

/-- `t` shows `w` but for what the acceptance of a command adds: the outcome record, the PASS request and the report. -/
structure Shows (w t : State) : Prop where
  seq : t.seq = w.seq
  opt : t.opt = w.opt
  intake : t.intake = w.intake
  accum : t.accum = w.accum
  trace : t.trace = w.trace
  verdict : t.verdict = w.verdict
  findings : t.findings = w.findings
  plan : t.plan = { w.plan with lastCommand := t.plan.lastCommand }
  guards : t.path.guards = w.path.guards
  mem : t.mem = w.mem
  pins : t.pins = w.pins

/-- A report shows its state. -/
theorem shows_report (w : State) : Shows w (report w) := by
  constructor <;> simp

/-- The end of an accepted command shows the state its work has left. -/
theorem shows_answer (a : Access) (code tag : BitVec 8) (w : State) :
    Shows w (report (passAccess a (recordOutcome code tag .accepted w))) := by
  constructor <;> simp [passAccess, recordOutcome, markDirty]

/-! ### A sweep starts (R28) -/

/-- A sweep as it starts, before the first offer (R28 steps 1 to 9). -/
def begun (s : State) : State :=
  clearPairs { s with
    seq.state := .sweeping
    seq.sweepNumber := s.seq.sweepNumber + 1
    seq.mode := activeMode s
    seq.outcomes := Vector.replicate 24 .notInSweep
    seq.cursor := 0
    seq.orderEnded := false
    seq.quietEnd := false
    seq.entered := false
    findings.posted := 0
    findings.deferred := 0 }

/-- A sweep's start applies nothing of a settled plan (R9). -/
theorem applyAtSweepStart_settled {s : State} (h : PlanSettled s) : applyAtSweepStart s = s := by
  unfold applyAtSweepStart applyZonesIfDue applyHeaderIfDue
  obtain hold | ⟨header, zones, -⟩ := h
  · simp [hold]
  · simp [header, zones]

/-- A sweep starts with a settled plan and a ring that has passed its check. -/
theorem startSweep_settled {s : State} (plan : PlanSettled s) (ring : s.plan.ringFault = false) :
    startSweep s = report (begun s) := by
  unfold startSweep
  rw [applyAtSweepStart_settled (s := { s with seq.state := .sweeping, seq.sweepNumber := s.seq.sweepNumber + 1 })
    (planSettled_of plan rfl)]
  dsimp only
  rw [if_neg (by simp [ring])]
  rfl

/-- Slot 0 in SETTLING at the start of a sweep. -/
def firstSettled (s : State) : State := report (entered 0 (setPartnerIgnored 0 (report (begun s))))

/-- The plan check reads the active copies alone (R16). -/
theorem planCheck_of {s t : State} (active : t.plan.activeCopy = s.plan.activeCopy) (k : SlotIx) :
    planCheck t k = planCheck s k := by
  unfold planCheck fieldsPass buffersPass ringCapacity activeRecord activeHeader
  rw [active]

/-- Slot 0 can take the lane of a sweep as it starts where it could before. -/
theorem nextSlotSettles_of {k : SlotIx} {s t : State} (h : NextSlotSettles k s) (plan : t.plan = s.plan)
    (opt : t.opt = s.opt) : NextSlotSettles k t := by
  obtain ⟨record, enabled, check, unsettled⟩ := h
  refine ⟨?_, ?_, ?_, ?_⟩
  · simpa [holdFlag, activeHeader, plan] using record
  · simpa [activeRecord, plan] using enabled
  · exact (planCheck_of (by rw [plan]) k).trans check
  · simpa [activeRecord, warmOf, plan, opt] using unsettled

/-- A sweep that starts goes on with slot 0 in SETTLING, and nothing more is called for (R30). -/
theorem sweepOn_begun {s : State} (acq : s.seq.acq = none) (next : NextSlotSettles 0 s) (n : Nat) :
    sweepOn (n + 1) (report (begun s)) = firstSettled s := by
  have lane : lanes 32 (report (begun s)) = firstSettled s :=
    lanes_enters (k := 0) (by simp [begun]) (by simpa [begun] using acq) (by simp [begun, clearPairs])
      (by simp [begun, clearPairs]) (by simp [begun, clearPairs])
      (nextSlotSettles_of next (by simp [begun]) (by simp [begun])) 31
  obtain ⟨seq, -⟩ := entered_frame 0 (setPartnerIgnored 0 (report (begun s)))
  unfold sweepOn
  dsimp only
  rw [lane, if_neg]
  simp [sweepOver, firstSettled, seq]

/-- The Trace Engine stays idle where its background operation and its view read stay. -/
theorem traceIdle_same {s t : State} (h : TraceIdle s) (bg : t.trace.bg = s.trace.bg)
    (view : t.trace.view = s.trace.view) : TraceIdle t := by
  unfold TraceIdle runningOperation at *
  rwa [bg, view]

/-- A sweep started goes as far as slot 0 in SETTLING. -/
theorem advance_begun {s : State} (acq : s.seq.acq = none) (next : NextSlotSettles 0 s) (idle : TraceIdle s) :
    advance (report (begun s)) = firstSettled s := by
  obtain ⟨w, hw⟩ : ∃ w, w = setPartnerIgnored 0 (report (begun s)) := ⟨_, rfl⟩
  have before : w.trace = s.trace := by simp [hw, begun]
  obtain ⟨-, -, -, -, trace, -⟩ := entered_frame 0 w
  unfold advance
  rw [sweepOn_begun acq next, firstSettled, ← hw, runTrace_idle]
  refine traceIdle_same idle ?_ ?_
  · simp [trace, before]
  · simp [trace, before]

end Sys2Proof.Machine
end

section
/-! PROOFS. What the steps of a sweep's end leave (R36, R37, R141). -/

namespace Sys2Proof.Machine

/-! ### The listing of the slots not offered (R36 step 1) -/

/-- The listing changes nothing of the sequencer but the outcomes. -/
theorem listSlots_seq (ks : List SlotIx) (s : State) :
    (listSlots ks s).seq = { s.seq with outcomes := (listSlots ks s).seq.outcomes } := by
  induction ks generalizing s with
  | nil => rfl
  | cons k rest ih => exact ih (setOutcome k .notRun s)

/-- The listed slots take NOT RUN, and the others keep their outcome. -/
theorem listSlots_outcomes (ks : List SlotIx) (k : SlotIx) (s : State) :
    (listSlots ks s).seq.outcomes[k] = if k ∈ ks then .notRun else s.seq.outcomes[k] := by
  induction ks generalizing s with
  | nil => simp [listSlots]
  | cons j rest ih =>
    rw [listSlots, ih]
    by_cases h : k ∈ rest
    · simp [h]
    · by_cases hj : k = j
      · subst hj
        simp [h, setOutcome]
      · have ne : j.val ≠ k.val := fun e => hj (Fin.ext e.symm)
        simp [h, hj, setOutcome, Vector.getElem_set_ne _ _ ne]

/-! ### The summary (R36 step 4, R150) -/

/-- A summary that joins the queue waits there with its notice request. -/
theorem mem_queueSummary (sm : Summary) (notice : Bool) (s : State) :
    ∃ n, .summary sm n ∈ (queueSummary sm notice s).findings.queue ∧ (notice = true → n = true) := by
  unfold queueSummary
  dsimp only
  split
  · next waits =>
    obtain ⟨r, mem, is⟩ := List.any_eq_true.mp waits
    cases r with
    | summary old n => exact ⟨n || notice, List.mem_map.mpr ⟨_, mem, rfl⟩, by simp_all⟩
    | finding | capture => simp [QRecord.isSummary] at is
  · exact ⟨notice, by simp, id⟩

/-- A summary that joins the queue leaves the counts of the findings block. -/
theorem queueSummary_counts (sm : Summary) (notice : Bool) (s : State) :
    (queueSummary sm notice s).findings.posted = s.findings.posted ∧
      (queueSummary sm notice s).findings.deferred = s.findings.deferred := ⟨rfl, rfl⟩

/-! ### Pair inputs resolved at the end (R141) -/

/-- With no input stored there is nothing to resolve. -/
theorem resolvePending_none (ks : List SlotIx) {s : State} (h : ∀ a : SlotIx, s.verdict.inputs[a] = none) :
    resolvePending ks s = s := by
  induction ks with
  | nil => rfl
  | cons a rest ih =>
    have same : resolveUnpaired a s = s := by
      unfold resolveUnpaired
      rw [h a]
    rw [resolvePending, same, ih]

/-- A resolved input is FINAL, and the others stay. -/
theorem resolveUnpaired_inputs (a k : SlotIx) (s : State) :
    (resolveUnpaired a s).verdict.inputs[k] =
      if k = a then (s.verdict.inputs[a]).map fun x => if x.final then x else { x with kind := .loss, final := true }
      else s.verdict.inputs[k] := by
  unfold resolveUnpaired
  split
  · next x hx =>
    by_cases final : x.final = true
    · by_cases h : k = a
      · subst h
        simp [final, hx]
      · simp [final, h]
    · obtain ⟨inputs, -⟩ := postVerdict_pairs a (verdictOfInput s x .loss false)
        (setInput a (some { x with kind := .loss, final := true }) s)
      rw [if_neg final, inputs]
      by_cases h : k = a
      · subst h
        simp [setInput, final, hx]
      · have ne : a.val ≠ k.val := fun e => h (Fin.ext e.symm)
        simp [setInput, h, Vector.getElem_set_ne _ _ ne]
  · next hx =>
    by_cases h : k = a
    · subst h
      simp [hx]
    · simp [h]

/-- After the inputs of a list of slots are resolved none of them is PENDING. -/
theorem resolvePending_final (ks : List SlotIx) (s : State) (k : SlotIx)
    (h : k ∈ ks ∨ ∀ x, s.verdict.inputs[k] = some x → x.final = true) :
    ∀ x, (resolvePending ks s).verdict.inputs[k] = some x → x.final = true := by
  induction ks generalizing s with
  | nil => simpa [resolvePending] using h
  | cons a rest ih =>
    refine ih (resolveUnpaired a s) ?_
    rw [resolveUnpaired_inputs]
    by_cases hk : k = a
    · subst hk
      rw [if_pos rfl]
      refine Or.inr fun x hx => ?_
      obtain ⟨y, -, rfl⟩ := Option.map_eq_some_iff.mp hx
      split
      · next final => exact final
      · rfl
    · rw [if_neg hk]
      exact h.imp_left fun mem => (List.mem_cons.mp mem).resolve_left hk

/-! ### The steps of an end (R36 steps 1 to 4) -/

/-- The steps of an end change nothing of the sequencer but the outcomes. -/
theorem endSteps_seq (reason : EndReason) (s : State) :
    (endSteps reason s).seq = { s.seq with outcomes := (endSteps reason s).seq.outcomes } := by
  unfold endSteps
  by_cases h : reason = .complete
  · simp [h]
  · simpa [h] using listSlots_seq (listedFrom s s.seq.cursor) s

/-- At an end other than COMPLETE the slots not offered take NOT RUN. -/
theorem endSteps_outcomes {reason : EndReason} (h : reason ≠ .complete) (k : SlotIx) (s : State) :
    (endSteps reason s).seq.outcomes[k] = listedOutcomes s k := by
  unfold endSteps
  simpa [h, listedOutcomes] using listSlots_outcomes (listedFrom s s.seq.cursor) k s

/-- At a COMPLETE end the outcomes stand. -/
theorem endSteps_complete (s : State) : (endSteps .complete s).seq = s.seq := by
  simp [endSteps]

/-- At an end the summary waits, with what it is composed of and with its notice request. -/
theorem endSteps_summary (reason : EndReason) (s : State) : ∃ sm n, .summary sm n ∈ (endSteps reason s).findings.queue ∧
    (endNotice reason s = true → n = true) ∧ sm.sweep = s.seq.sweepNumber ∧ sm.mode = s.seq.mode ∧
    sm.reason = reason ∧ sm.empty = (!s.seq.entered) ∧ sm.outcomes = (endSteps reason s).seq.outcomes ∧
    sm.posted = (endSteps reason s).findings.posted ∧ sm.deferred = (endSteps reason s).findings.deferred := by
  obtain ⟨s2, hs2, number, mode, entered⟩ : ∃ s2, s2 = resolvePending (List.finRange 24)
      (if reason = .complete then s else listSlots (listedFrom s s.seq.cursor) s) ∧
      s2.seq.sweepNumber = s.seq.sweepNumber ∧ s2.seq.mode = s.seq.mode ∧ s2.seq.entered = s.seq.entered := by
    refine ⟨_, rfl, ?_⟩
    by_cases h : reason = .complete
    · simp [h]
    · have seq := listSlots_seq (listedFrom s s.seq.cursor) s
      simp only [h, if_false, resolvePending_frame]
      rw [seq]
      exact ⟨rfl, rfl, rfl⟩
  obtain ⟨n, mem, asks⟩ := mem_queueSummary (composeSummary reason s2) (endNotice reason s2) s2
  have ends : endSteps reason s = report (queueSummary (composeSummary reason s2) (endNotice reason s2) s2) := by
    rw [hs2]
    rfl
  have notice : endNotice reason s2 = endNotice reason s := by simp [endNotice, mode, entered]
  rw [ends]
  refine ⟨composeSummary reason s2, n, by simpa using mem, fun h => asks (notice.trans h), number, mode, rfl,
    ?_, ?_, ?_, ?_⟩
  · simp [composeSummary, entered]
  · simp [composeSummary]
  · simp [composeSummary, queueSummary_counts]
  · simp [composeSummary, queueSummary_counts]

/-- With no pair input stored the steps of an end leave the verdicts and the counts of the findings block. -/
theorem endSteps_unpaired {reason : EndReason} {s : State} (h : ∀ a : SlotIx, s.verdict.inputs[a] = none) :
    (endSteps reason s).verdict = s.verdict ∧ (endSteps reason s).findings.posted = s.findings.posted ∧
      (endSteps reason s).findings.deferred = s.findings.deferred := by
  unfold endSteps
  dsimp only
  rw [resolvePending_none]
  · by_cases r : reason = .complete <;> simp [r, queueSummary_counts]
  · by_cases r : reason = .complete
    · simpa [r] using h
    · simpa [r] using h

/-- After the steps of an end no pair input is PENDING. -/
theorem endSteps_final (reason : EndReason) (s : State) (k : SlotIx) :
    ∀ x, (endSteps reason s).verdict.inputs[k] = some x → x.final = true := by
  unfold endSteps
  simpa using resolvePending_final (List.finRange 24)
    (if reason = .complete then s else listSlots (listedFrom s s.seq.cursor) s) k (Or.inl (List.mem_finRange k))

end Sys2Proof.Machine
end

section
/-! PROOFS. What a sweep begun shows (R28, R30), and what one ended at its start by the ring check does (R29). -/

namespace Sys2Proof.Machine

/-! ### A sweep begun -/

/-- The first entry of a sweep breaks no pair: nothing changes in the Verdict Unit but the judgement, and nothing in the
findings block. -/
theorem entered_first {k : SlotIx} {s : State} (h : s.verdict.judgements = Vector.replicate 24 .notEntered) :
    (entered k s).verdict.table = s.verdict.table ∧ (entered k s).verdict.inputs = s.verdict.inputs ∧
      (entered k s).findings = s.findings := by
  obtain ⟨u, hu⟩ : ∃ u, u = setOutcome k .notRun { s with
      seq.cursor := k.val + 1
      seq.entered := true
      seq.acq := some ⟨k, .settling⟩ } := ⟨_, rfl⟩
  have verdict : u.verdict = s.verdict := by simp [hu]
  have findings : u.findings = s.findings := by simp [hu]
  have whole (judged : Judgement) (l : List SlotIx) : breakPairs k judged l u = u := by
    induction l with
    | nil => rfl
    | cons a rest ih =>
      have same : breakPair k judged a u = u := by
        have none : relation u a ≠ .openTo k := by simp [relation, verdict, h]
        unfold breakPair
        rw [if_neg fun both => none both.1]
      rw [breakPairs, same, ih]
  unfold entered
  rw [← hu]
  simp [recordJudgement, whole, verdict, findings]

/-- A slot that passes the plan check has a source (R16). -/
theorem planCheck_source {s : State} {k : SlotIx} (h : planCheck s k = true) : recSource (activeRecord s k) ≠ 3 := by
  intro e
  simp [planCheck, fieldsPass, e] at h

/-- The sequencer as slot 0 stands in SETTLING at the start of a sweep. -/
theorem firstSettled_seq (s : State) : (firstSettled s).seq = { (begun s).seq with
    cursor := 1, entered := true, acq := some ⟨0, .settling⟩, outcomes := (begun s).seq.outcomes.set 0 .notRun } := by
  obtain ⟨seq, -⟩ := entered_frame 0 (setPartnerIgnored 0 (report (begun s)))
  unfold firstSettled
  rw [(report_frame _).2.1, seq]
  simp

/-- The verdicts and the findings block there: no input is stored, no verdict moves, and nothing is counted yet. -/
theorem firstSettled_verdict (s : State) : (firstSettled s).verdict.table = s.verdict.table ∧
    (firstSettled s).verdict.inputs = Vector.replicate 24 none ∧
    (firstSettled s).findings = { s.findings with posted := 0, deferred := 0 } := by
  obtain ⟨w, hw⟩ : ∃ w, w = setPartnerIgnored 0 (report (begun s)) := ⟨_, rfl⟩
  have blocks : w.verdict.judgements = Vector.replicate 24 .notEntered ∧
      w.verdict.inputs = Vector.replicate 24 none ∧ w.verdict.table = s.verdict.table ∧
      w.findings = { s.findings with posted := 0, deferred := 0 } := by
    simp [hw, begun, clearPairs, setPartnerIgnored]
  obtain ⟨judgements, none, kept, counts⟩ := blocks
  obtain ⟨table, inputs, findings⟩ := entered_first (k := 0) judgements
  unfold firstSettled
  rw [← hw]
  simp [table, inputs, findings, none, kept, counts]

/-- The blocks that a sweep's start and its first slot's entry leave, or change for slot 0 alone. -/
theorem firstSettled_frame (s : State) :
    (firstSettled s).intake = { s.intake with
      accepted := s.intake.accepted.set 0 0, rejected := s.intake.rejected.set 0 0, lost := s.intake.lost.set 0 0
      lastReject := s.intake.lastReject.set 0 .none, failures := 0 } ∧
    (firstSettled s).accum = { s.accum with
      ready := s.accum.ready.set 0 false, clippedContent := s.accum.clippedContent.set 0 false } ∧
    (firstSettled s).trace = { s.trace with
      seen := s.trace.seen.set 0 CondSet.empty, clipNote := s.trace.clipNote.set 0 false } ∧
    (firstSettled s).path = { s.path with
      guards := s.path.guards ++ [⟨.run, 0, recAccBase (activeRecord s 0), recPoints (activeRecord s 0)⟩] } ∧
    (firstSettled s).plan.activeCopy = s.plan.activeCopy ∧ (firstSettled s).plan.pendingCopy = s.plan.pendingCopy ∧
    (firstSettled s).mem = s.mem ∧ (firstSettled s).pins = s.pins := by
  obtain ⟨w, hw⟩ : ∃ w, w = setPartnerIgnored 0 (report (begun s)) := ⟨_, rfl⟩
  have plan : w.plan.activeCopy = s.plan.activeCopy ∧ w.plan.pendingCopy = s.plan.pendingCopy := by
    simp [hw, begun, setPartnerIgnored]
  have record : activeRecord w 0 = activeRecord s 0 := by simp [activeRecord, plan]
  have blocks : w.intake = s.intake ∧ w.accum = s.accum ∧ w.trace = s.trace ∧ w.mem = s.mem ∧ w.pins = s.pins ∧
      w.path = s.path := by simp [hw, begun]
  obtain ⟨-, path, intake, accum, trace, planAfter, mem, pins⟩ := entered_frame 0 w
  unfold firstSettled
  rw [← hw]
  simp [path, intake, accum, trace, planAfter, mem, pins, blocks, plan, record]

/-- Optical Control there: the port selected, the source warming, and the run's shots at their start. -/
theorem firstSettled_opt (s : State) : (firstSettled s).opt.port = recPort (activeRecord s 0) ∧
    (firstSettled s).opt.nextSeq = 0 ∧ (firstSettled s).opt.spacingTimer = none ∧
    (firstSettled s).opt.dutyCount = s.opt.dutyCount ∧
    warmOf (firstSettled s) (recSource (activeRecord s 0)) =
      if warmOf s (recSource (activeRecord s 0)) = .cold ∧ recSource (activeRecord s 0) ≠ 3 then .warming
      else warmOf s (recSource (activeRecord s 0)) := by
  obtain ⟨w, hw⟩ : ∃ w, w = setPartnerIgnored 0 (report (begun s)) := ⟨_, rfl⟩
  have record : activeRecord w 0 = activeRecord s 0 := by simp [activeRecord, hw, begun, setPartnerIgnored]
  have opt : w.opt = s.opt := by simp [hw, begun]
  have warm (v : State) : v.opt = s.opt → warmOf v = warmOf s := fun h => by
    funext i
    simp [warmOf, h]
  have after : warmOf (report (entered 0 w)) = warmOf (entered 0 w) := by
    funext i
    simp [warmOf]
  have taken := entered_opt 0 w
  rw [record, opt, warm w opt] at taken
  obtain ⟨port, nextSeq, spacing, duty, -, heated⟩ := taken
  unfold firstSettled
  rw [← hw, after]
  exact ⟨by simp [port], by simp [nextSeq], by simp [spacing], by simp [duty], heated⟩

/-- A sweep whose first slot settles has begun. -/
theorem sweepBegun_firstSettled {s : State} (h : FirstSlotSettles s) : SweepBegun s (firstSettled s) := by
  obtain ⟨table, inputs, findings⟩ := firstSettled_verdict s
  obtain ⟨intake, accum, trace, path, active, pending, mem, pins⟩ := firstSettled_frame s
  obtain ⟨port, nextSeq, spacing, duty, warm⟩ := firstSettled_opt s
  have seq := firstSettled_seq s
  generalize firstSettled s = t at *
  exact {
    state := by rw [seq]; rfl
    number := by rw [seq]; rfl
    mode := by rw [seq]; rfl
    acq := by rw [seq]
    comp := by rw [seq]; exact h.comp
    cursor := by rw [seq]
    marks := by rw [seq]; exact ⟨rfl, rfl, rfl⟩
    outcomes := by rw [seq]; rfl
    counts := by simp [findings]
    inputs := inputs
    run := by simp [intake]
    flags := by simp [accum, trace]
    guard := by simp [path]
    port := port
    warming := by
      have cold := h.cold
      have source := planCheck_source h.check
      have heated : warmOf t (recSource (activeRecord s 0)) = .warming := by
        rw [warm]
        cases state : warmOf s (recSource (activeRecord s 0)) <;> simp_all
      exact heated
    shots := ⟨nextSeq, spacing, duty⟩
    plans := ⟨active, pending⟩
    table := table
    memory := fun a => by rw [mem]
    pins := pins }

/-- A sweep begun, as what shows its state shows it. -/
theorem SweepBegun.shows {s w t : State} (h : SweepBegun s w) (shown : Shows w t) : SweepBegun s t where
  state := by rw [shown.seq, h.state]
  number := by rw [shown.seq, h.number]
  mode := by rw [shown.seq, h.mode]
  acq := by rw [shown.seq, h.acq]
  comp := by rw [shown.seq, h.comp]
  cursor := by rw [shown.seq, h.cursor]
  marks := by rw [shown.seq]; exact h.marks
  outcomes := by rw [shown.seq, h.outcomes]
  counts := by rw [shown.findings]; exact h.counts
  inputs := by rw [shown.verdict, h.inputs]
  run := by rw [shown.intake]; exact h.run
  flags := by rw [shown.accum, shown.trace]; exact h.flags
  guard := by rw [shown.guards, h.guard]
  port := by rw [shown.opt, h.port]
  warming := by
    have same : sourceState t = sourceState w := by
      funext n
      unfold sourceState
      rw [shown.opt]
    rw [same, h.warming]
  shots := by rw [shown.opt]; exact h.shots
  plans := by rw [shown.plan]; exact h.plans
  table := by rw [shown.verdict, h.table]
  memory := fun a => by rw [shown.mem, h.memory]
  pins := by rw [shown.pins, h.pins]

/-! ### A sweep refused by the ring check (R29) -/

/-- `u` is `s` with what an application of the header and the zone table leaves of a plan whose ring pair is refused. -/
structure Refused (s u : State) : Prop where
  blocks : u = { s with plan := u.plan }
  fault : u.plan.ringFault = true
  header : activeHeader u = activeHeader s
  records : u.plan.activeCopy.records = s.plan.activeCopy.records
  again : RingRefused u

/-- An application leaves the active header as it is where only the ring pair differs (R8). -/
theorem appliedHeader_same {pending active : Vector Word 32}
    (h : ∀ i : Fin 32, i ≠ 6 → i ≠ 7 → pending[i] = active[i]) : appliedHeader pending active = active := by
  refine Vector.ext fun i hi => ?_
  unfold appliedHeader
  by_cases h7 : 7 = i
  · subst h7
    simp
  · by_cases h6 : 6 = i
    · subst h6
      simp
    · rw [Vector.getElem_set_ne _ _ h7, Vector.getElem_set_ne _ _ h6]
      exact h ⟨i, hi⟩ (fun e => h6 (congrArg Fin.val e).symm) fun e => h7 (congrArg Fin.val e).symm

/-- A presented pair that does not fit leaves the fault mark, and the active header as it is (R13, R14). -/
theorem applyHeader_refused {s : State} (h : RingRefused s) (clear : holdFlag s = false) :
    applyHeader s = { s with
      plan := { s.plan with headerDirty := false, ringPending := true, ringFault := true } } := by
  obtain hold | ⟨-, -, differs, beyond⟩ := h.fault
  · simp [clear] at hold
  have same : appliedHeader s.plan.pendingCopy.header s.plan.activeCopy.header = s.plan.activeCopy.header :=
    appliedHeader_same h.header
  have fits : ¬ headerRingBase s.plan.pendingCopy.header +
      16 * headerRingCapacity s.plan.pendingCopy.header ≤ 0xFFF000 := by omega
  rw [applyHeader_eq, same, if_neg (Ne.symm (Ne.symm differs))]
  split_ifs <;> simp [fits]

/-- The application of the header and the zone table to a plan whose ring pair is refused. -/
theorem refused_applied {s : State} (h : RingRefused s) (clear : holdFlag s = false) :
    Refused s (applyZonesIfDue (applyHeaderIfDue s)) := by
  obtain hold | ⟨-, pending, differs, beyond⟩ := h.fault
  · simp [clear] at hold
  rw [applyHeaderIfDue, if_pos (by simp [headerDue, pending]), applyHeader_refused h clear]
  unfold applyZonesIfDue
  split
  all_goals exact {
    blocks := rfl
    fault := rfl
    header := rfl
    records := rfl
    again := ⟨Or.inr ⟨clear, rfl, differs, beyond⟩, h.header, h.records, h.acq, h.comp, h.trace⟩ }

/-- The application of everything outside SWEEPING to a plan whose ring pair is refused. -/
theorem refused_applyDirty {s : State} (h : RingRefused s) : Refused s (applyDirty s) := by
  unfold applyDirty
  by_cases hold : holdFlag s = true
  · obtain ⟨-, fault⟩ | ⟨clear, -⟩ := h.fault
    · rw [if_pos hold]
      exact ⟨rfl, fault, rfl, rfl, h⟩
    · simp [clear] at hold
  · rw [if_neg hold]
    have refused := refused_applied h (by simpa using hold)
    rw [applyRecords_clean fun k _ => refused.again.records k]
    exact refused

/-- A sweep's start of a plan whose ring pair is refused. -/
theorem refused_atStart {s : State} (h : RingRefused s) : Refused s (applyAtSweepStart s) := by
  unfold applyAtSweepStart
  by_cases hold : holdFlag s = true
  · obtain ⟨-, fault⟩ | ⟨clear, -⟩ := h.fault
    · rw [if_pos hold]
      exact ⟨rfl, fault, rfl, rfl, h⟩
    · simp [clear] at hold
  · rw [if_neg hold]
    exact refused_applied h (by simpa using hold)

/-- The refusal does not depend on what stands beside the plan, the lanes and the background operation. -/
theorem RingRefused.of {s t : State} (h : RingRefused s) (plan : t.plan = s.plan) (acq : t.seq.acq = s.seq.acq)
    (comp : t.seq.comp = s.seq.comp) (bg : t.trace.bg = s.trace.bg) : RingRefused t := by
  obtain ⟨fault, header, records, hacq, hcomp, trace⟩ := h
  refine ⟨?_, ?_, ?_, acq.trans hacq, comp.trans hcomp, ?_⟩
  · simpa [holdFlag, activeHeader, plan] using fault
  · simpa [activeHeader, plan] using header
  · simpa [plan] using records
  · unfold TraceSettled
    rwa [bg]

/-- A state outside SWEEPING entered with a plan whose ring pair is refused: nothing but the plan's marks and the zone
table can change (R10). -/
theorem enterState_refused {st : SeqState} {s : State} (h : RingRefused s) (fault : s.plan.ringFault = true) :
    ∃ u, enterState st s = report u ∧ Refused { s with seq.state := st } u := by
  have refused : RingRefused { s with seq.state := st } := h.of rfl rfl rfl rfl
  unfold enterState applyOutside
  split
  · exact ⟨_, rfl, rfl, fault, rfl, rfl, refused⟩
  · exact ⟨_, rfl, refused_applyDirty refused⟩

/-- The same slots are listed where the same slots are enabled (R36). -/
theorem listedFrom_of {s t : State} (h : t.plan.activeCopy.records = s.plan.activeCopy.records) :
    listedFrom t = listedFrom s := by
  funext cursor
  unfold listedFrom activeRecord
  rw [h]

/-- `w` is `s` with a sweep started whose ring pair is refused, before it is ended (R28 steps 1 to 9). -/
structure RefusedStart (s w : State) : Prop where
  seq : w.seq = { s.seq with
    state := .sweeping, sweepNumber := s.seq.sweepNumber + 1, mode := w.seq.mode, cursor := 0, orderEnded := false
    quietEnd := false, entered := false, outcomes := Vector.replicate 24 .notInSweep }
  inputs : w.verdict.inputs = Vector.replicate 24 none
  table : w.verdict.table = s.verdict.table
  counts : w.findings.posted = 0 ∧ w.findings.deferred = 0
  mem : w.mem = s.mem
  fault : w.plan.ringFault = true
  header : activeHeader w = activeHeader s
  records : w.plan.activeCopy.records = s.plan.activeCopy.records
  again : RingRefused w

/-- A sweep that starts with the ring pair refused is ended at once (R29). -/
theorem startSweep_refused {s : State} (h : RingRefused s) :
    ∃ w, startSweep s = enterState .halted (endSteps .headerFault w) ∧ RefusedStart s w := by
  obtain ⟨z, hz⟩ : ∃ z : State, z = { s with seq.state := .sweeping, seq.sweepNumber := s.seq.sweepNumber + 1 } :=
    ⟨_, rfl⟩
  have zrefused : RingRefused z := h.of (by simp [hz]) (by simp [hz]) (by simp [hz]) (by simp [hz])
  obtain ⟨v, hv⟩ : ∃ v, v = applyAtSweepStart z := ⟨_, rfl⟩
  have refused : Refused z v := hv ▸ refused_atStart zrefused
  have blocks := refused.blocks
  have vseq : v.seq = { s.seq with state := .sweeping, sweepNumber := s.seq.sweepNumber + 1 } := by rw [blocks, hz]
  have kept : v.verdict = s.verdict ∧ v.mem = s.mem := by
    rw [blocks, hz]
    exact ⟨rfl, rfl⟩
  obtain ⟨w, hw⟩ : ∃ w, w = report (clearPairs { v with
      seq.mode := activeMode v
      seq.outcomes := Vector.replicate 24 .notInSweep
      seq.cursor := 0
      seq.orderEnded := false
      seq.quietEnd := false
      seq.entered := false
      findings.posted := 0
      findings.deferred := 0 }) := ⟨_, rfl⟩
  have plan : w.plan = v.plan := by simp [hw]
  refine ⟨w, ?_, ?_⟩
  · unfold startSweep
    rw [← hz, ← hv]
    dsimp only
    rw [if_pos (by simpa using refused.fault), hw]
  · exact {
      seq := by simp [hw, vseq]
      inputs := by simp [hw, clearPairs]
      table := by simp [hw, kept]
      counts := by simp [hw, clearPairs]
      mem := by simp [hw, kept]
      fault := by rw [plan, refused.fault]
      header := by
        have same : activeHeader w = activeHeader v := congrArg (·.activeCopy.header) plan
        rw [same, refused.header, hz]
        rfl
      records := by rw [plan, refused.records, hz]
      again := refused.again.of plan (by simp [hw]) (by simp [hw]) (by simp [hw]) }

/-- A sweep ended at its start by the ring check shows what the statement asks (R29, R36, R37). -/
theorem headerFaulted_startSweep {s : State} (h : RingRefused s) : HeaderFaulted s (startSweep s) := by
  obtain ⟨w, start, began⟩ := startSweep_refused h
  obtain ⟨e, he⟩ : ∃ e, e = endSteps .headerFault w := ⟨_, rfl⟩
  have frame := endSteps_frame .headerFault w
  have outcomes := fun k => endSteps_outcomes (reason := .headerFault) (by simp) k w
  obtain ⟨sm, n, mem, asks, sweep, mode, reason, empty, listed, posted, deferred⟩ := endSteps_summary .headerFault w
  obtain ⟨verdict, posted', deferred'⟩ := endSteps_unpaired (reason := .headerFault) (s := w) (by simp [began.inputs])
  have eseq := endSteps_seq .headerFault w
  rw [← he] at frame outcomes mem listed posted deferred verdict posted' deferred' eseq
  have ended : RingRefused e := began.again.of (by simp [he]) (by simp [he]) (by simp [he]) (by simp [he])
  obtain ⟨u, hu, last⟩ := enterState_refused (st := .halted) ended (by simpa [he] using began.fault)
  have blocks := last.blocks
  have useq : u.seq = { e.seq with state := .halted } := by rw [blocks]
  have kept : u.verdict = e.verdict ∧ u.findings = e.findings ∧ u.mem = e.mem := by
    rw [blocks]
    exact ⟨rfl, rfl, rfl⟩
  have cursor : w.seq.cursor = 0 := by rw [began.seq]
  have emode : e.seq.mode = w.seq.mode := by rw [eseq]
  have number : e.seq.sweepNumber = s.seq.sweepNumber + 1 := by rw [eseq, began.seq]
  rw [start, ← he, hu]
  exact {
    state := by simp [useq]
    number := by simp [useq, number]
    lanes := by simpa [useq] using ⟨ended.acq, ended.comp⟩
    outcomes := fun k => by
      have wout : w.seq.outcomes = Vector.replicate 24 .notInSweep := by rw [began.seq]
      have k' := outcomes k
      rw [listedOutcomes, cursor, listedFrom_of began.records, wout] at k'
      simpa [useq] using k'
    summary := by
      have wnumber : w.seq.sweepNumber = s.seq.sweepNumber + 1 := by rw [began.seq]
      have wentered : w.seq.entered = false := by rw [began.seq]
      obtain rfl : n = true := asks (by simp [endNotice])
      refine ⟨sm, by simpa [kept] using mem, sweep.trans wnumber, ?_, reason, by simp [empty, wentered],
        by rw [posted, posted', began.counts.1], by rw [deferred, deferred', began.counts.2],
        by simpa [useq] using listed⟩
      simp [mode, useq, emode]
    fault := by simp [last.fault]
    ring := by
      have same : activeHeader (report u) = activeHeader s := by
        have eheader : activeHeader e = activeHeader w := by simp [activeHeader, he]
        calc activeHeader (report u) = activeHeader u := by simp [activeHeader]
          _ = activeHeader e := last.header
          _ = activeHeader s := eheader.trans began.header
      rw [same]
    inputs := by simp [kept, verdict, began.inputs]
    table := by simp [kept, verdict, began.table]
    memory := fun a => by
      have emem : e.mem = s.mem := by simp [he, began.mem]
      simp [kept, emem] }

/-- A sweep refused at its start, as what shows its state shows it. -/
theorem HeaderFaulted.shows {s w t : State} (h : HeaderFaulted s w) (shown : Shows w t) : HeaderFaulted s t where
  state := by rw [shown.seq, h.state]
  number := by rw [shown.seq, h.number]
  lanes := by rw [shown.seq]; exact h.lanes
  outcomes := fun k => by rw [shown.seq]; exact h.outcomes k
  summary := by rw [shown.findings, shown.seq]; exact h.summary
  fault := by rw [shown.plan]; exact h.fault
  ring := by
    have same : activeHeader t = activeHeader w := by
      unfold activeHeader
      rw [shown.plan]
    rw [same, h.ring]
  inputs := by rw [shown.verdict, h.inputs]
  table := by rw [shown.verdict, h.table]
  memory := fun a => by rw [shown.mem, h.memory]

/-- A sweep refused from the state an application has left is one refused from the state before it. -/
theorem HeaderFaulted.before {s u t : State} (refused : Refused s u) (h : HeaderFaulted u t) : HeaderFaulted s t := by
  have blocks := refused.blocks
  have kept : u.seq = s.seq ∧ u.verdict = s.verdict ∧ u.mem = s.mem := by
    rw [blocks]
    exact ⟨rfl, rfl, rfl⟩
  obtain ⟨seq, verdict, mem⟩ := kept
  exact {
    state := h.state
    number := by rw [h.number, seq]
    lanes := h.lanes
    outcomes := fun k => by rw [h.outcomes, listedFrom_of refused.records]
    summary := by rw [← seq]; exact h.summary
    fault := h.fault
    ring := by rw [h.ring, refused.header]
    inputs := h.inputs
    table := by rw [h.table, verdict]
    memory := fun a => by rw [h.memory, mem] }

end Sys2Proof.Machine
end

section
/-! PROOFS. Each way to start a sweep (O14: R25 to R30, R42, R43). -/

namespace Sys2Proof.Machine

/-! ### The ways to start a sweep -/

/-- `t` shows a sweep started from `s`, or from what an application of the dirty regions leaves of `s` (R12). -/
def SweepFrom (s t : State) : Prop := ∃ u, (u = s ∨ u = applyDirty s) ∧ Shows (advance (startSweep u)) t

/-- A sweep's start ends with its report. -/
theorem report_startSweep (s : State) : report (startSweep s) = startSweep s := by
  unfold startSweep enterState
  dsimp only
  split <;> exact report_report _

/-- A command that starts a sweep. -/
theorem exec_starts {s u : State} (h : BusReady s) (c : CommandName) (operand spare tag : BitVec 8)
    (from_ : u = s ∨ u = applyDirty s) (runs : runCommand c operand s = (startSweep u, .accepted)) :
    ∃ t, exec (commandInstr c operand spare tag) s = .next t ∧ SweepFrom s t := by
  refine ⟨_, exec_accepted_advance h c operand spare tag runs, u, from_, ?_⟩
  rw [report_startSweep]
  exact shows_answer _ _ _ _

/-- An event that starts a sweep. -/
theorem happen_starts {s : State} (h : EventReady s) {f : State → State} (runs : f s = advance (startSweep s)) :
    SweepFrom s (happen f s) := by
  rw [happen_eq h runs (by simp)]
  exact ⟨s, Or.inl rfl, shows_report _⟩

section
variable {operand spare tag : BitVec 8} {s : State}

/-- START in IDLE starts a sweep (R25). -/
theorem start_starts (h : BusReady s) (st : s.seq.state = .idle) (free : deferring s = false)
    (mode : headerMode (activeHeader s) ≠ .triggered) (gate : s.pins.gate = true) :
    ∃ t, exec (.start operand spare tag) s = .next t ∧ SweepFrom s t := by
  refine exec_starts h .start operand spare tag (Or.inl rfl) ?_
  have mode' : activeMode s ≠ .triggered := mode
  simp [runCommand, commandStart, st, free, mode', startOrWait, gate]

/-- RELEASE in PAUSED starts a sweep (R43). -/
theorem release_starts (h : BusReady s) (st : s.seq.state = .paused) (gate : s.pins.gate = true) :
    ∃ t, exec (.release operand spare tag) s = .next t ∧ SweepFrom s t := by
  refine exec_starts h .release operand spare tag (Or.inl rfl) ?_
  simp [runCommand, commandRelease, st, startOrWait, gate]

/-- RESTART in WAITING and PAUSED starts a sweep (R42). -/
theorem restart_starts (h : BusReady s) (st : s.seq.state = .waiting ∨ s.seq.state = .paused)
    (pause : headerPauseOnRestart (activeHeader (applyDirty s)) = false) (gate : s.pins.gate = true) :
    ∃ t, exec (.restart operand spare tag) s = .next t ∧ SweepFrom s t := by
  refine exec_starts h .restart operand spare tag (Or.inr rfl) ?_
  rcases st with st | st
  all_goals simp [runCommand, commandRestart, st, restartNext, pause, startOrWait, gate]

/-- TRIGGER in WAITING in TRIGGERED mode starts a sweep (R27). -/
theorem trigger_starts (h : BusReady s) (st : s.seq.state = .waiting) (mode : headerMode (activeHeader s) = .triggered)
    (gate : s.pins.gate = true) : ∃ t, exec (.trigger operand spare tag) s = .next t ∧ SweepFrom s t := by
  refine exec_starts h .trigger operand spare tag (Or.inl rfl) ?_
  simp [runCommand, commandTrigger, triggerCounts, st, activeMode, mode, gate]

/-- A trigger edge of the counting sense starts a sweep there (R27). -/
theorem triggerEdge_starts (h : BusReady s) (st : s.seq.state = .waiting)
    (mode : headerMode (activeHeader s) = .triggered) (gate : s.pins.gate = true) :
    ∃ t, exec (.triggerEdge (headerTriggerEdge (activeHeader s))) s = .next t ∧
      SweepFrom (setTrigger (headerTriggerEdge (activeHeader s)) s) t := by
  refine ⟨_, rfl, happen_starts (s := setTrigger (headerTriggerEdge (activeHeader s)) s) ⟨h.running, h.noWaiting⟩ ?_⟩
  have counts : triggerCounts (setTrigger (headerTriggerEdge (activeHeader s)) s) = true := by
    simp [triggerCounts, setTrigger, st, activeMode, activeHeader, gate]
    exact mode
  exact if_pos ⟨rfl, counts⟩

/-- The gate's assertion in WAITING in another mode starts a sweep (R26). -/
theorem gate_starts (h : BusReady s) (st : s.seq.state = .waiting) (mode : headerMode (activeHeader s) ≠ .triggered)
    (gate : s.pins.gate = false) (acq : s.seq.acq = none) :
    ∃ t, exec .quietHoursGateAsserted s = .next t ∧ SweepFrom (setGate true s) t := by
  have row : exec .quietHoursGateAsserted s = .next (happen gateAsserted (setGate true s)) := by
    simp [exec, execQuietHoursGateAsserted, gate]
  refine ⟨_, row, happen_starts (s := setGate true s) ⟨h.running, h.noWaiting⟩ ?_⟩
  have tested : waitingTest (setGate true s) = startSweep (setGate true s) := if_pos ⟨st, mode, rfl⟩
  unfold gateAsserted
  rw [tested, testFire_none]
  intro l lane
  simp [acq] at lane

end

/-! ### What a started sweep shows -/

/-- A sweep that can start with slot 0 has begun. -/
theorem sweepBegun_from {s t : State} (h : FirstSlotSettles s) (view : s.trace.view = none) (start : SweepFrom s t) :
    SweepBegun s t := by
  obtain ⟨u, same, shown⟩ := start
  have same : u = s := same.elim id fun e => e.trans (applyDirty_settled h.plan)
  have first : NextSlotSettles 0 s := by
    refine ⟨?_, h.enabled, h.check, Or.inr (Or.inr h.cold)⟩
    obtain hold | ⟨-, -, records⟩ := h.plan
    · exact Or.inl hold
    · exact Or.inr (records 0)
  rw [same, startSweep_settled h.plan h.ring, advance_begun h.acq first (idle_of view h.trace)] at shown
  exact (sweepBegun_firstSettled h).shows shown

/-- A sweep that the ring check refuses has ended. -/
theorem headerFaulted_from {s t : State} (h : RingRefused s) (view : s.trace.view = none) (start : SweepFrom s t) :
    HeaderFaulted s t := by
  obtain ⟨u, same, shown⟩ := start
  obtain ⟨again, before, trace⟩ : RingRefused u ∧ (HeaderFaulted u t → HeaderFaulted s t) ∧ u.trace = s.trace := by
    obtain rfl | rfl := same
    · exact ⟨h, id, rfl⟩
    · have refused := refused_applyDirty h
      have blocks := refused.blocks
      exact ⟨refused.again, HeaderFaulted.before refused, by rw [blocks]⟩
  have faulted := headerFaulted_startSweep again
  have idle : TraceIdle (startSweep u) :=
    traceIdle_same (idle_of (trace ▸ view) again.trace) (by simp) (by simp)
  rw [advance_outside (by simp [faulted.state]) idle] at shown
  exact before (faulted.shows shown)

/-- Settles O14: each way to start a sweep starts it from the state it finds, and what a started sweep shows follows
from whether slot 0 can take the lane or the ring pair is refused. -/
theorem sweepStarts : Obligations.SweepStarts := by
  intro operand spare tag s bus starts
  have all (Begins : State → State → Prop) (header : activeHeader (applyDirty s) = activeHeader s)
      (acq : s.seq.acq = none) (shows' : ∀ p t, SweepFrom { s with pins := p } t → Begins { s with pins := p } t) : starts Begins := by
    have lift {c : Instr} {p : PinState} (h : ∃ t, exec c s = .next t ∧ SweepFrom { s with pins := p } t) :
        ∃ t, exec c s = .next t ∧ Begins { s with pins := p } t := by
      obtain ⟨t, next, start⟩ := h
      exact ⟨t, next, shows' p t start⟩
    refine ⟨fun st free mode gate => ?_, fun st gate => ?_, fun st pause gate => ?_, fun st mode gate => ⟨?_, ?_⟩,
      fun st mode gate => ?_⟩
    · exact lift (start_starts bus st free mode gate)
    · exact lift (release_starts bus st gate)
    · exact lift (restart_starts bus st (header ▸ pause) gate)
    · exact lift (trigger_starts bus st mode gate)
    · exact lift (triggerEdge_starts bus st mode gate)
    · exact lift (gate_starts bus st mode gate acq)
  refine ⟨fun h => ?_, fun h => ?_⟩
  · refine all SweepBegun (by rw [applyDirty_settled h.plan]) h.acq fun p t start => ?_
    exact sweepBegun_from ⟨h.plan, h.ring, h.enabled, h.check, h.cold, h.acq, h.comp, h.trace⟩ bus.noView start
  · refine all HeaderFaulted (refused_applyDirty h).header h.acq fun p t start => ?_
    exact headerFaulted_from (h.of rfl rfl rfl rfl) bus.noView start

end Sys2Proof.Machine
end

section
/-! PROOFS. STOP and RESTART in SWEEPING (O17: R36, R39, R40, R42). -/

namespace Sys2Proof.Machine

/-! ### What an abandonment leaves (R39) -/

/-- `e` is `s` with the lanes empty and nothing else of the sweep moved, as an abandonment leaves it. -/
structure Abandoned (s e : State) : Prop where
  seq : e.seq = { s.seq with acq := none, comp := none, quietEnd := e.seq.quietEnd }
  plan : e.plan = s.plan
  mem : e.mem = s.mem
  pins : e.pins = s.pins
  idle : TraceIdle e
  shots : s.seq.acq ≠ none →
    e.intake.outstanding = [] ∧ e.intake.framing = none ∧ e.accum.queue = [] ∧ e.accum.add = none

/-- The sequencer after the acquisition lane is abandoned. -/
theorem abandonAcquisition_seq (keep : Bool) (s : State) :
    (abandonAcquisition keep s).seq = { s.seq with acq := none } := by
  unfold abandonAcquisition dropAcquisition
  split
  · split <;> simp
  · next none => rw [← none]

/-- The sequencer after the comparison lane is abandoned. -/
theorem abandonComparison_seq (s : State) : (abandonComparison s).seq = { s.seq with comp := none } := by
  unfold abandonComparison
  split
  · simp
  · next none => rw [← none]

/-- The run of the slot in the acquisition lane is gone after it is abandoned, with no view read held (R39,
R80, R93). -/
theorem abandonAcquisition_run {s : State} {l : AcqLane} (view : s.trace.view = none) (lane : s.seq.acq = some l)
    (keep : Bool) :
    (abandonAcquisition keep s).intake =
      { s.intake with outstanding := [], buffer0 := .free, buffer1 := .free, framing := none } ∧
    (abandonAcquisition keep s).accum.queue = [] ∧ (abandonAcquisition keep s).accum.add = none ∧
    (abandonAcquisition keep s).accum.ready = s.accum.ready.set l.slot false ∧
    (abandonAcquisition keep s).path.guards = s.path.guards.filter (fun g => !(g.holder = .run && g.slot = l.slot)) ∧
    (abandonAcquisition keep s).trace = s.trace := by
  obtain ⟨u, hu⟩ : ∃ u, u = stopSettle (spacingElapsed (deassertTestActive { s with seq.acq := none })) := ⟨_, rfl⟩
  have kept : u.intake = s.intake ∧ u.accum = s.accum ∧ u.path = s.path ∧ u.trace = s.trace := by simp [hu]
  obtain ⟨intake, accum, path, traceKept⟩ := kept
  obtain ⟨trace, queue, add, -, -⟩ := endRunOf_held (s := u) (by rw [traceKept, view])
  unfold abandonAcquisition dropAcquisition
  rw [lane, ← hu]
  cases keep
  all_goals simp [setReady, liftGuard, trace, queue, add, intake, path, traceKept, accum]

/-- Optical Control after the acquisition lane is abandoned to the warm hold (R39, R48, R52, R58, R62). -/
theorem abandonAcquisition_opt {s : State} {l : AcqLane} (lane : s.seq.acq = some l) :
    (abandonAcquisition true s).opt.settleTimer = none ∧ (abandonAcquisition true s).opt.spacingTimer = none ∧
    (abandonAcquisition true s).opt.testActive = false ∧ (abandonAcquisition true s).opt.port = s.opt.port ∧
    (abandonAcquisition true s).opt.settled = s.opt.settled ∧
    (headerWarmHold (activeHeader s) ≠ 0 → (abandonAcquisition true s).opt.warm = s.opt.warm ∧
      (abandonAcquisition true s).opt.warmHoldTimer =
        some ⟨recSource (activeRecord s l.slot), headerWarmHold (activeHeader s)⟩) ∧
    (headerWarmHold (activeHeader s) = 0 → (abandonAcquisition true s).opt.warm =
      sourceSet s.opt.warm (recSource (activeRecord s l.slot)) .cold) := by
  obtain ⟨u, hu⟩ : ∃ u, u = dropAcquisition l.slot s := ⟨_, rfl⟩
  have opt : u.opt = { s.opt with settleTimer := none, spacingTimer := none, testActive := false } := by
    simp [hu, dropAcquisition, stopSettle, spacingElapsed, deassertTestActive]
  have header : activeHeader u = activeHeader s := by simp [activeHeader, hu]
  unfold abandonAcquisition
  rw [lane]
  dsimp only
  rw [← hu, if_pos rfl]
  unfold leaveLane
  by_cases hold : headerWarmHold (activeHeader s) = 0
  · simp [header, hold, coldSource, deassertTestActive, opt]
  · simp [header, hold, deassertTestActive, opt]

/-- The background operation after the comparison lane is abandoned. -/
theorem abandonComparison_trace (s : State) : (abandonComparison s).trace.view = s.trace.view ∧
    ((abandonComparison s).trace.bg = s.trace.bg ∨ (abandonComparison s).trace.bg = none) := by
  refine ⟨by simp, ?_⟩
  unfold abandonComparison endCompareRun
  split
  · split
    · split
      · exact Or.inr (by simp [setBg])
      · exact Or.inl (by simp)
    · exact Or.inl (by simp)
  · exact Or.inl rfl

/-- The Trace Engine is idle with no view read held and a background operation that was settled, or none. -/
theorem idle_bg {s t : State} (settled : TraceSettled s) (view : t.trace.view = none)
    (bg : t.trace.bg = s.trace.bg ∨ t.trace.bg = none) : TraceIdle t := by
  refine idle_of view fun b hb => ?_
  rcases bg with bg | bg
  · exact settled b (bg ▸ hb)
  · simp [bg] at hb

/-- Both lanes abandoned leave the sweep as it is but for the lanes (R39). -/
theorem abandoned_lanes {s : State} (view : s.trace.view = none) (settled : TraceSettled s) (keep : Bool) :
    Abandoned s (abandonLanes keep s) := by
  have seq : (abandonLanes keep s).seq = { s.seq with acq := none, comp := none } := by
    rw [abandonLanes, abandonComparison_seq, abandonAcquisition_seq]
  obtain ⟨view', bg⟩ := abandonComparison_trace (abandonAcquisition keep s)
  obtain ⟨held, -⟩ := abandonLanes_held view keep
  exact {
    seq := by simp [seq]
    plan := by simp [abandonLanes]
    mem := by simp [abandonLanes]
    pins := by simp [abandonLanes]
    idle := idle_bg settled held (by simpa [abandonLanes] using bg)
    shots := fun busy => by
      obtain ⟨l, lane⟩ := Option.ne_none_iff_exists'.mp busy
      obtain ⟨intake, queue, add, -⟩ := abandonAcquisition_run view lane keep
      simp [abandonLanes, intake, queue, add] }

/-! ### A sweep ended (R36, R37, R39) -/

/-- The slots listed after an abandonment are those listed before it. -/
theorem listedOutcomes_abandoned {s e : State} (h : Abandoned s e) : listedOutcomes e = listedOutcomes s := by
  funext k
  have outcomes : e.seq.outcomes = s.seq.outcomes := by rw [h.seq]
  have cursor : e.seq.cursor = s.seq.cursor := by rw [h.seq]
  unfold listedOutcomes
  rw [listedFrom_of (s := s) (t := e) (by rw [h.plan]), outcomes, cursor]

/-- A sweep that ends other than COMPLETE after its lanes are abandoned, and rests in a state. -/
theorem sweepEnded_of {reason : EndReason} (other : reason ≠ .complete) {s e t : State} {st : SeqState}
    (h : Abandoned s e) (shown : Shows (enterState st (endSteps reason e)) t) : SweepEnded reason s t := by
  obtain ⟨sm, n, mem, asks, sweep, mode, why, empty, listed, -, -⟩ := endSteps_summary reason e
  obtain rfl : n = true := asks (by simp [endNotice, other])
  have eseq := h.seq
  have acq : e.seq.acq = none := by rw [eseq]
  have comp : e.seq.comp = none := by rw [eseq]
  exact {
    lanes := by rw [shown.seq]; simp [acq, comp]
    outcomes := fun k => by
      rw [shown.seq]
      simp only [enterState_frame]
      rw [endSteps_outcomes other, listedOutcomes_abandoned h]
    summary := by
      refine ⟨sm, by rw [shown.findings]; simpa using mem, ?_, ?_, why, ?_, by rw [shown.seq]; simpa using listed⟩
      · rw [sweep, eseq]
      · rw [mode, eseq]
      · rw [empty, eseq]
    number := by
      have number : e.seq.sweepNumber = s.seq.sweepNumber := by rw [eseq]
      rw [shown.seq]
      simp [number]
    shots := fun busy => by
      rw [shown.intake, shown.accum]
      simpa using h.shots busy
    memory := fun a => by rw [shown.mem]; simp [h.mem] }

/-- The state entered is the state. -/
theorem enterState_state (st : SeqState) (s : State) : (enterState st s).seq.state = st := by
  simp [enterState]

/-- A sweep ended by a command that leaves SWEEPING. -/
theorem exec_ends {s e u : State} {reason : EndReason} (other : reason ≠ .complete) (bus : BusReady s) {c : CommandName}
    {operand : BitVec 8} (spare tag : BitVec 8) (h : Abandoned s e) {st : SeqState} (left : st ≠ .sweeping)
    (ends : u = enterState st (endSteps reason e)) (runs : runCommand c operand s = (u, .accepted)) :
    ∃ t, exec (commandInstr c operand spare tag) s = .next t ∧ Shows u t ∧ t.seq.state = st ∧
      SweepEnded reason s t := by
  have state : u.seq.state = st := by rw [ends, enterState_state]
  have idle : TraceIdle (report u) := traceIdle_same h.idle (by simp [ends]) (by simp [ends])
  have next := exec_accepted_advance bus c operand spare tag runs
  rw [advance_outside (by simpa [state] using left) idle] at next
  have shown : Shows u (report (passAccess (commandWrite c operand spare tag)
      (recordOutcome c.code tag .accepted (report u)))) := by
    constructor <;> simp [passAccess, recordOutcome, markDirty]
  generalize report (passAccess _ _) = t at next shown
  exact ⟨t, next, shown, by rw [shown.seq, state], sweepEnded_of other h (ends ▸ shown)⟩

/-- An abandonment that does not leave the source to the warm hold leaves a quenched Optical Control quenched. -/
theorem abandonLanes_quenched (s : State) :
    (abandonLanes false (quenchOptics s)).opt.warm = ⟨.cold, .cold, .cold⟩ ∧
    (abandonLanes false (quenchOptics s)).opt.warmUpTimer = none ∧
    (abandonLanes false (quenchOptics s)).opt.warmHoldTimer = none ∧
    (abandonLanes false (quenchOptics s)).opt.testActive = false := by
  obtain ⟨warm, up, hold, active, -⟩ := quenchOptics_sources s
  have opt : (abandonLanes false (quenchOptics s)).opt = (abandonAcquisition false (quenchOptics s)).opt := by
    simp [abandonLanes]
  rw [opt]
  unfold abandonAcquisition
  split
  · refine ⟨by simp, by simp, by simp, ?_⟩
    simp [dropAcquisition, stopSettle, spacingElapsed, deassertTestActive]
  · exact ⟨warm, up, hold, active⟩

/-- STOP in SWEEPING ends the sweep in HALTED with every source COLD (R36, R40, R53). -/
theorem stop_ends {operand spare tag : BitVec 8} {s : State} (bus : BusReady s) (settled : TraceSettled s)
    (st : s.seq.state = .sweeping) : ∃ t, exec (.stop operand spare tag) s = .next t ∧ t.seq.state = .halted ∧
      SweepEnded .stopped s t ∧ t.opt.warm = ⟨.cold, .cold, .cold⟩ ∧ t.opt.warmUpTimer = none ∧
      t.opt.warmHoldTimer = none ∧ t.opt.testActive = false := by
  obtain ⟨e, he⟩ : ∃ e, e = abandonLanes false (quenchOptics s) := ⟨_, rfl⟩
  have optics := abandonLanes_quenched s
  obtain ⟨seq, plan, mem, pins, idle, shots⟩ := abandoned_lanes (s := quenchOptics s) (by simpa using bus.noView)
    (by simpa [TraceSettled] using settled) false
  rw [← he] at optics seq plan mem pins idle shots
  have abandoned : Abandoned s e :=
    ⟨by simpa using seq, by simpa using plan, by simpa using mem, by simpa using pins, idle, by simpa using shots⟩
  obtain ⟨t, next, shown, state, ended⟩ := exec_ends (reason := .stopped) (st := .halted) (operand := operand)
    (c := .stop) (by simp) bus spare tag abandoned (by simp) rfl (by simp [runCommand, commandStop, st, he])
  refine ⟨t, next, state, ended, ?_⟩
  rw [shown.opt]
  simpa using optics

/-- A sweep can start with slot 0 after the lanes are abandoned where it could before (R39, R52). -/
theorem nextSlotSettles_abandoned {k : SlotIx} {s t : State} (h : NextSlotSettles k s) (plan : t.plan = s.plan)
    (opt : t.opt = (abandonLanes true s).opt) : NextSlotSettles k t := by
  obtain ⟨record, enabled, check, unsettled⟩ := h
  refine ⟨?_, ?_, (planCheck_of (by rw [plan]) k).trans check, ?_⟩
  · simpa [holdFlag, activeHeader, plan] using record
  · simpa [activeRecord, plan] using enabled
  · have same : activeRecord t k = activeRecord s k := by simp [activeRecord, plan]
    have opt' : t.opt = (abandonAcquisition true s).opt := by simp [opt, abandonLanes]
    rw [same]
    cases lane : s.seq.acq with
    | none =>
      have whole : abandonAcquisition true s = s := by simp [abandonAcquisition, lane]
      simpa [opt', whole, warmOf] using unsettled
    | some l =>
      obtain ⟨-, -, -, port, settles, holds, colds⟩ := abandonAcquisition_opt lane
      rw [← opt'] at port settles holds colds
      rw [port, settles]
      refine unsettled.imp_right (Or.imp_right fun cold => ?_)
      by_cases hold : headerWarmHold (activeHeader s) = 0
      · rw [warmOf_eq, sourceState_set (s := s) (colds hold)]
        split
        · simp
        · exact cold
      · unfold warmOf at cold ⊢
        rw [(holds hold).1]
        exact cold

/-- WAITING entered with the gate deasserted and a settled plan starts nothing (R26). -/
theorem enterWaiting_closed {s : State} (gate : s.pins.gate = false) : enterWaiting s = enterState .waiting s := by
  unfold enterWaiting waitingTest
  rw [if_neg]
  simp [gate]

/-- A new sweep that starts at once after one is ended, and what it keeps of the end (R28, R30, R42). -/
structure SweptOn (reason : EndReason) (s t : State) : Prop where
  state : t.seq.state = .sweeping
  number : t.seq.sweepNumber = s.seq.sweepNumber + 1
  mode : t.seq.mode = headerMode (activeHeader s)
  lanes : t.seq.acq = some ⟨0, .settling⟩ ∧ t.seq.comp = none ∧ t.seq.cursor = 1
  marks : t.seq.orderEnded = false ∧ t.seq.quietEnd = false ∧ t.seq.entered = true
  outcomes : t.seq.outcomes = (Vector.replicate 24 SlotOutcome.notInSweep).set 0 .notRun
  summary : ∃ sm n, .summary sm n ∈ t.findings.queue ∧ (endNotice reason s = true → n = true) ∧
    sm.sweep = s.seq.sweepNumber ∧ sm.mode = s.seq.mode ∧ sm.reason = reason ∧ sm.empty = (!s.seq.entered) ∧
    sm.outcomes = (endSteps reason s).seq.outcomes
  shots : t.intake.outstanding = s.intake.outstanding ∧ t.intake.framing = s.intake.framing ∧
    t.accum.queue = s.accum.queue ∧ t.accum.add = s.accum.add
  inputs : t.verdict.inputs = Vector.replicate 24 none
  memory : t.mem = s.mem
  pins : t.pins = s.pins

/-- A sweep started from the state that an end has left goes on with slot 0 in SETTLING. -/
theorem sweptOn_of {reason : EndReason} {s t : State} (comp : s.seq.comp = none)
    (shown : Shows (firstSettled (endSteps reason s)) t) : SweptOn reason s t := by
  obtain ⟨sm, n, mem, asks, sweep, mode, why, empty, listed, -, -⟩ := endSteps_summary reason s
  obtain ⟨z, hz⟩ : ∃ z, z = endSteps reason s := ⟨_, rfl⟩
  have kept : z.seq.sweepNumber = s.seq.sweepNumber ∧ z.seq.comp = none ∧ z.intake = s.intake ∧ z.accum = s.accum ∧
      z.mem = s.mem ∧ z.pins = s.pins ∧ activeMode z = headerMode (activeHeader s) := by
    simp [hz, comp, activeMode, activeHeader]
  obtain ⟨number, comp', intake', accum', mem', pins', mode'⟩ := kept
  have seq := firstSettled_seq z
  obtain ⟨-, inputs, findings⟩ := firstSettled_verdict z
  obtain ⟨intake, accum, -, -, -, -, memory, pins⟩ := firstSettled_frame z
  rw [← hz] at shown mem
  rw [← shown.seq] at seq
  rw [← shown.verdict] at inputs
  rw [← shown.findings] at findings
  rw [← shown.intake] at intake
  rw [← shown.accum] at accum
  rw [← shown.mem] at memory
  rw [← shown.pins] at pins
  exact {
    state := by rw [seq]; rfl
    number := by rw [seq, ← number]; rfl
    mode := by rw [seq, ← mode']; rfl
    lanes := by rw [seq]; exact ⟨rfl, comp', rfl⟩
    marks := by rw [seq]; exact ⟨rfl, rfl, rfl⟩
    outcomes := by rw [seq]; rfl
    summary := ⟨sm, n, by simpa [findings] using mem, asks, sweep, mode, why, empty, listed⟩
    shots := by simp [intake, accum, intake', accum']
    inputs := inputs
    memory := memory.trans mem'
    pins := pins.trans pins' }

/-- A sweep started from the state that an end has left, as far as it goes by itself. -/
theorem advance_sweptOn {reason : EndReason} {s : State} (plan : PlanSettled s) (ring : s.plan.ringFault = false)
    (acq : s.seq.acq = none) (next : NextSlotSettles 0 s) (idle : TraceIdle s) :
    advance (startSweep (endSteps reason s)) = firstSettled (endSteps reason s) := by
  rw [startSweep_settled (planSettled_of plan (by simp)) (by simpa using ring)]
  refine advance_begun (by simpa using acq) (nextSlotSettles_of next (by simp) (by simp)) ?_
  exact traceIdle_same idle (by simp) (by simp)

/-- RESTART in SWEEPING ends the sweep and passes on (R42). -/
theorem restart_runs {s : State} {operand : BitVec 8} (st : s.seq.state = .sweeping) (plan : PlanSettled s) :
    runCommand .restart operand s = (restartNext (endSteps .restarted (abandonLanes true s)), .accepted) := by
  have settled : PlanSettled (abandonLanes true s) := planSettled_of plan (by simp [abandonLanes])
  simp [runCommand, commandRestart, st, applyDirty_settled settled]

/-- Settles O17: a command that ends the sweep abandons the lanes, lists the slots not offered and rests or starts
again. -/
theorem commandEndsSweep : Obligations.CommandEndsSweep := by
  intro operand spare tag s bus settled st
  have abandoned := abandoned_lanes bus.noView settled true
  have header : activeHeader (endSteps .restarted (abandonLanes true s)) = activeHeader s := by
    simp [activeHeader, abandonLanes]
  refine ⟨stop_ends bus settled st, fun plan pause => ?_, fun plan go => ⟨fun gate => ?_, fun gate ring next => ?_⟩⟩
  · obtain ⟨t, step, -, state, ended⟩ := exec_ends (reason := .restarted) (c := .restart) (operand := operand) (by simp)
      bus spare tag abandoned (st := .paused) (by simp) rfl (by
        rw [restart_runs st plan, restartNext, header, if_pos pause])
    exact ⟨t, step, state, ended⟩
  · obtain ⟨t, step, -, state, ended⟩ := exec_ends (reason := .restarted) (c := .restart) (operand := operand) (by simp)
      bus spare tag abandoned (st := .waiting) (by simp) rfl (by
        rw [restart_runs st plan, restartNext, header, if_neg (by simp [go]), startOrWait, if_neg, enterWaiting_closed]
        · simp [gate]
        · simp [gate])
    exact ⟨t, step, state, ended⟩
  · obtain ⟨e, he⟩ : ∃ e, e = abandonLanes true s := ⟨_, rfl⟩
    have runs : runCommand .restart operand s = (startSweep (endSteps .restarted e), .accepted) := by
      rw [restart_runs st plan, restartNext, header, if_neg (by simp [go]), startOrWait, if_pos (by simp [gate]), he]
    have next' : NextSlotSettles 0 e := nextSlotSettles_abandoned next (he ▸ abandoned.plan) (by rw [he])
    rw [← he] at abandoned
    have acq : e.seq.acq = none := by rw [abandoned.seq]
    have comp : e.seq.comp = none := by rw [abandoned.seq]
    have step := exec_accepted_advance bus .restart operand spare tag runs
    rw [report_startSweep, advance_sweptOn (planSettled_of plan abandoned.plan) (by rw [abandoned.plan, ring]) acq next'
      abandoned.idle] at step
    have shown := shows_answer (commandWrite .restart operand spare tag) CommandName.restart.code tag
      (firstSettled (endSteps .restarted e))
    generalize report (passAccess _ _) = t at step shown
    have swept := sweptOn_of comp shown
    obtain ⟨sm, n, mem, asks, sweep, mode, why, empty, listed⟩ := swept.summary
    obtain rfl : n = true := asks (by simp [endNotice])
    obtain ⟨lane, free, cursor⟩ := swept.lanes
    obtain ⟨order, quiet, entered⟩ := swept.marks
    have number : e.seq.sweepNumber = s.seq.sweepNumber := by rw [abandoned.seq]
    have mode' : e.seq.mode = s.seq.mode := by rw [abandoned.seq]
    have empty' : e.seq.entered = s.seq.entered := by rw [abandoned.seq]
    have header' : activeHeader e = activeHeader s := by simp [activeHeader, abandoned.plan]
    refine ⟨t, step, swept.state, by rw [swept.number, number], by rw [swept.mode, header'], lane, free, cursor, order,
      quiet, entered, swept.outcomes, ⟨sm, mem, sweep.trans number, mode.trans mode', why, by rw [empty, empty'],
        fun k => ?_⟩, fun busy => ?_, swept.inputs, fun a => by rw [swept.memory, abandoned.mem],
      swept.pins.trans abandoned.pins⟩
    · rw [listed, endSteps_outcomes (by simp), listedOutcomes_abandoned abandoned]
    · obtain ⟨h1, h2, h3, h4⟩ := swept.shots
      rw [h1, h2, h3, h4]
      exact abandoned.shots busy

end Sys2Proof.Machine
end

section
/-! PROOFS. The quiet end that the gate's deassertion begins (O49: R38, R39, R52). -/

namespace Sys2Proof.Machine

/-- The state in which the quiet end begins: the gate deasserted and the quiet-end mark set (R38). -/
def quietened (s : State) : State := { setGate false s with seq.quietEnd := true }

/-- The gate's deassertion in SWEEPING, the quiet end not yet begun. -/
theorem exec_gateDeasserted {s u : State} (h : EventReady s) (gate : s.pins.gate = true) (st : s.seq.state = .sweeping)
    (quiet : s.seq.quietEnd = false) (goes : advance (abandonAcquisition true (quietened s)) = u) :
    exec .quietHoursGateDeasserted s = .next (report u) := by
  have row : exec .quietHoursGateDeasserted s = .next (happen gateDeasserted (setGate false s)) := by
    simp [exec, execQuietHoursGateDeasserted, gate]
  have acts : gateDeasserted (setGate false s) = u := by
    rw [← goes]
    exact if_pos ⟨st, quiet⟩
  rw [row, happen_eq (s := setGate false s) ⟨h.running, h.noWaiting⟩ acts]
  rw [← goes]
  simp [quietened, setGate]

/-- The sequencer in a quiet end (R38). -/
theorem quietened_seq (s : State) :
    (abandonAcquisition true (quietened s)).seq = { s.seq with acq := none, quietEnd := true } := by
  rw [abandonAcquisition_seq]
  rfl

/-- The Trace Engine stays idle as the acquisition lane is abandoned. -/
theorem abandonAcquisition_idle {s : State} (view : s.trace.view = none) (settled : TraceSettled s) (keep : Bool) :
    TraceIdle (abandonAcquisition keep s) := by
  refine idle_bg settled ?_ (Or.inl (by simp))
  cases lane : s.seq.acq with
  | none => simpa [abandonAcquisition, lane] using view
  | some l =>
    obtain ⟨-, -, -, -, -, trace⟩ := abandonAcquisition_run view lane keep
    rw [trace, view]

/-- With a slot in the comparison lane a quiet end waits for its result (R38). -/
theorem quietEnd_waits {s : State} (view : s.trace.view = none) (settled : TraceSettled s) {c : CompLane}
    (comp : s.seq.comp = some c) :
    advance (abandonAcquisition true (quietened s)) = abandonAcquisition true (quietened s) := by
  refine advance_settled ⟨?_, ?_, abandonAcquisition_idle (s := quietened s) view settled true⟩
  · simp [laneCalls, quietened_seq]
  · simp [sweepOver, quietened_seq, comp]

/-- With no slot in the comparison lane a quiet end ends the sweep at once, in WAITING (R38). -/
theorem quietEnd_ends {s : State} (view : s.trace.view = none) (settled : TraceSettled s) (comp : s.seq.comp = none)
    (st : s.seq.state = .sweeping) (order : s.seq.orderEnded = false) :
    advance (abandonAcquisition true (quietened s)) =
      enterState .waiting (endSteps .quiet (abandonAcquisition true (quietened s))) := by
  have idle := abandonAcquisition_idle (s := quietened s) view settled true
  have seq := quietened_seq s
  have pins : (abandonAcquisition true (quietened s)).pins.gate = false := by simp [quietened, setGate]
  generalize abandonAcquisition true (quietened s) = v at *
  have calls : laneCalls v = false := by simp [laneCalls, seq]
  have over' : sweepOver v = true := by simp [sweepOver, seq, comp, st]
  have ended : endSweep v = enterState .waiting (endSteps .quiet v) := by
    unfold endSweep
    rw [if_neg (by simp [seq, order]), enterWaiting_closed (by simpa using pins)]
  have outside : (endSweep v).seq.state ≠ .sweeping := by simp [ended, enterState_state]
  unfold advance sweepOn
  dsimp only
  rw [lanes_idle calls, if_pos over', sweepOn_idle (laneCalls_outside outside) (sweepOver_outside outside), ended,
    runTrace_idle]
  exact traceIdle_same idle (by simp) (by simp)

/-- A quiet end has abandoned the acquisition lane, the comparison lane being empty (R38, R39). -/
theorem abandoned_quietened {s : State} (view : s.trace.view = none) (settled : TraceSettled s)
    (comp : s.seq.comp = none) : Abandoned (setGate false s) (abandonAcquisition true (quietened s)) where
  seq := by
    rw [quietened_seq, ← comp]
    rfl
  plan := by simp [quietened, setGate]
  mem := by simp [quietened, setGate]
  pins := by simp [quietened, setGate]
  idle := abandonAcquisition_idle (s := quietened s) view settled true
  shots := fun busy => by
    obtain ⟨l, lane⟩ := Option.ne_none_iff_exists'.mp busy
    obtain ⟨intake, queue, add, -⟩ := abandonAcquisition_run (s := quietened s) view lane true
    simp [intake, queue, add]

/-- Settles O49: the acquisition lane is abandoned to the warm hold, and the sweep waits for the comparison lane or ends
QUIET. -/
theorem gateEndsSweep : Obligations.GateEndsSweep := by
  intro s h view settled gate st quiet
  refine ⟨fun l c acq comp => ?_, fun comp order => ?_⟩
  · refine ⟨_, exec_gateDeasserted h gate st quiet (quietEnd_waits view settled comp), ?_⟩
    have seq := quietened_seq s
    have lane : (quietened s).seq.acq = some l := acq
    obtain ⟨intake, queue, add, ready, guards, trace⟩ := abandonAcquisition_run (s := quietened s) view lane true
    obtain ⟨settle, spacing, active, port, -, holds, colds⟩ := abandonAcquisition_opt lane
    have kept : (abandonAcquisition true (quietened s)).pins = { s.pins with gate := false } ∧
        (abandonAcquisition true (quietened s)).plan = s.plan ∧
        (abandonAcquisition true (quietened s)).verdict = s.verdict ∧
        (abandonAcquisition true (quietened s)).findings = s.findings ∧
        (abandonAcquisition true (quietened s)).mem = s.mem := by simp [quietened, setGate]
    obtain ⟨pins, plan, verdict, findings, mem⟩ := kept
    generalize abandonAcquisition true (quietened s) = v at *
    refine ⟨by simp [pins], by simp [seq], by simp only [report_frame]; exact intake, by simp [queue], by simp [add],
      by simp only [report_frame]; exact ready, by simp only [report_frame]; exact guards, by simp [settle],
      by simp [spacing], by simp [active], by simp only [report_frame]; exact port, ⟨fun hold => ?_, fun hold => ?_⟩,
      by simp [plan], by simp only [report_frame]; exact trace, by simp [verdict], by simp [findings], by simp [mem]⟩
    · simp only [report_frame]
      exact holds hold
    · have cold : (report v).opt.warm =
          sourceSet (quietened s).opt.warm (recSource (activeRecord (quietened s) l.slot)) .cold := by
        simp only [report_frame]
        exact colds hold
      have number := (recSource (activeRecord s l.slot)).isLt
      refine (sourceState_set (s := quietened s) cold _).trans ?_
      split
      · rfl
      · next no =>
        have three : (recSource (activeRecord s l.slot)).toNat = 3 := by
          have below : ¬ (recSource (activeRecord s l.slot)).toNat < 3 := fun lt => no ⟨rfl, lt⟩
          omega
        rw [three]
        rfl
  · have abandoned := abandoned_quietened view settled comp
    refine ⟨_, exec_gateDeasserted h gate st quiet (quietEnd_ends view settled comp st order), ?_, ?_, ?_⟩
    · simp [quietened, setGate]
    · simp [enterState_state]
    · have ended := sweepEnded_of (reason := .quiet) (by simp) abandoned (shows_report (enterState .waiting
        (endSteps .quiet (abandonAcquisition true (quietened s)))))
      exact ⟨ended.lanes, ended.outcomes, ended.summary, ended.number, ended.shots, ended.memory⟩

end Sys2Proof.Machine
end

section
/-! PROOFS. A slot's move to the comparison lane (R32, R52, R101, R120). -/

namespace Sys2Proof.Machine

/-! ### What no verdict posted changes -/

/-- A verdict posted leaves the based flags (R143). -/
theorem postVerdict_based (k j : SlotIx) (v : Verdict) (s : State) :
    (postVerdict k v s).verdict.table[j].based = s.verdict.table[j].based := by
  by_cases h : j = k
  · subst h
    unfold postVerdict
    dsimp only
    split_ifs <;> simp [modifySlot]
  · rw [postVerdict_table_other h]

/-! ### A comparison run begins (R120, R101) -/

/-- The operation of a COMPARE-RUN as it begins with CLIPPED masked or not met (R101, R102, R120). -/
def begunRun (j : SlotIx) (s : State) : Background :=
  let b := newBackground .compareRun j s.intake.accepted[j] s
  if s.trace.clipNote[j] then { b with raised := b.raised.insert .clipped, masked := b.masked.insert .clipped } else b

/-- What the operation of a COMPARE-RUN begins with. -/
theorem begunRun_fields (j : SlotIx) (s : State) : (begunRun j s).op = .compareRun ∧ (begunRun j s).slot = j ∧
    (begunRun j s).shots = s.intake.accepted[j] ∧ (begunRun j s).record = activeRecord s j ∧
    (begunRun j s).point = recCompareStart (activeRecord s j) ∧
    (begunRun j s).stopping = headerStopping (activeHeader s) ∧ (begunRun j s).acc = none ∧
    (begunRun j s).masked = ⟨false, false, s.trace.clipNote[j]⟩ ∧ (begunRun j s).cmp = Comparison.start := by
  unfold begunRun newBackground CondSet.insert CondSet.empty
  cases s.trace.clipNote[j] <;> exact ⟨rfl, rfl, rfl, rfl, rfl, rfl, rfl, rfl, rfl⟩

/-- `w` is `s` but for the comparison lane, the Trace Engine, the capture records and the mirror. -/
structure OnlyCompares (s w : State) : Prop where
  seq : w.seq = { s.seq with comp := w.seq.comp }
  plan : w.plan = s.plan
  opt : w.opt = s.opt
  intake : w.intake = s.intake
  accum : w.accum = s.accum
  verdict : w.verdict = s.verdict
  view : w.trace.view = s.trace.view
  path : w.path = s.path
  mem : w.mem = s.mem
  pins : w.pins = s.pins

/-- A COMPARE-RUN that no condition stops at its start takes the background slot (R120). -/
theorem startCompareRun_goes {j : SlotIx} {s : State}
    (goes : (s.trace.clipNote[j] && (headerStopping (activeHeader s)).clipped) = false)
    (range : recCompareStart (activeRecord s j) ≤ recCompareEnd (activeRecord s j)) :
    OnlyCompares s (startCompareRun j s) ∧ (startCompareRun j s).seq.comp = s.seq.comp ∧
      (startCompareRun j s).trace.bg = some (begunRun j s) ∧ (startCompareRun j s).findings = s.findings := by
  obtain ⟨b, hb⟩ : ∃ b, b = newBackground .compareRun j s.intake.accepted[j] s := ⟨_, rfl⟩
  have nonempty : ¬ recCompareStart b.record > recCompareEnd b.record := by
    rw [hb]
    exact Nat.not_lt.mpr range
  have begun : begunRun j s = if s.trace.clipNote[j] then
      { b with raised := b.raised.insert .clipped, masked := b.masked.insert .clipped } else b := by
    rw [hb]
    rfl
  rw [begun]
  unfold startCompareRun startCompare
  dsimp only
  rw [← hb]
  cases met : s.trace.clipNote[j] with
  | false =>
    rw [testCondition_false, onGoing_some, if_neg nonempty]
    exact ⟨by constructor <;> simp, by simp, by simp, by simp⟩
  | true =>
    have raised : b.raised.has .clipped = false := by rw [hb]; rfl
    have mask : b.stopping.has .clipped = false := by
      have clear : (headerStopping (activeHeader s)).clipped = false := by simpa [met] using goes
      rw [hb]
      exact clear
    rw [testCondition_masks raised mask, onGoing_some, if_neg nonempty]
    exact ⟨by constructor <;> simp, by simp, by simp, by simp⟩

/-- A COMPARE-RUN that CLIPPED stops at its start ends there with its FAULTED result (R101, R103). -/
theorem startCompareRun_stops {j : SlotIx} {s : State}
    (stops : (s.trace.clipNote[j] && (headerStopping (activeHeader s)).clipped) = true)
    (comp : s.seq.comp = some ⟨j, .comparing⟩) :
    OnlyCompares s (startCompareRun j s) ∧ (startCompareRun j s).trace.bg = none ∧
      ∃ q, (startCompareRun j s).seq.comp = some ⟨j, .posting q⟩ ∧ q.kind = .faulted ∧ q.reason = .condition ∧
        q.location = 0 ∧ (s.trace.capture = none →
          (startCompareRun j s).trace.capture = some ⟨.compareRun, j, s.seq.sweepNumber, 0, .clipped⟩) := by
  obtain ⟨b, hb⟩ : ∃ b, b = newBackground .compareRun j s.intake.accepted[j] s := ⟨_, rfl⟩
  simp only [Bool.and_eq_true] at stops
  obtain ⟨met, stopping⟩ := stops
  have raised : b.raised.has .clipped = false := by rw [hb]; rfl
  have stop : b.stopping.has .clipped = true := by rw [hb]; exact stopping
  obtain ⟨c, hc, op, slot⟩ : ∃ c : Background, c = { b with raised := b.raised.insert .clipped } ∧ c.op = .compareRun ∧
      c.slot = j := ⟨_, rfl, by rw [hb]; rfl, by rw [hb]; rfl⟩
  obtain ⟨u, hu, useq⟩ : ∃ u, u = captureStop c 0 .clipped (raiseCondition .clipped j (setBg (some b) s)) ∧
      u.seq = s.seq := ⟨_, rfl, by simp⟩
  obtain ⟨q, hq⟩ : ∃ q, q = resultOf u c ⟨.faulted, 0, 0, false, false⟩ .condition c.cmp.glitches := ⟨_, rfl⟩
  have run : startCompareRun j s = setBg none { u with
      trace.glitchCount := u.trace.glitchCount.set j q.glitches, seq.comp := some ⟨j, .posting q⟩ } := by
    unfold startCompareRun startCompare
    dsimp only
    rw [← hb, met, testCondition_stops raised stop, onGoing_none, ← hc]
    have slot' : b.slot = j := by rw [hb]; rfl
    unfold stopOperation
    rw [slot', ← hu, if_neg (by simp [op]), endCompare_run (by simp [op]), ← hq]
    unfold reportResult
    simp [slot, useq, comp]
  rw [run]
  refine ⟨?_, by simp, q, by simp, by rw [hq]; rfl, by rw [hq]; rfl, by rw [hq]; rfl, fun empty => ?_⟩
  · constructor
    all_goals simp [hu]
  · have first : (raiseCondition .clipped j (setBg (some b) s)).trace.capture = none := by simpa using empty
    simp only [hu, setBg_frame, captureStop_first first, queueCapture_frame, op, slot]
    simp

/-! ### The slot in the comparison lane (R32) -/

/-- What slot `j` that holds `held` in `s` enters the comparison lane with in `t` (R32, R101, R120). -/
def ComparisonEntered (j : SlotIx) (held : Held) (s t : State) : Prop :=
  let rec' := activeRecord s j
  let runs := held = .accumulation ∧ s.verdict.table[j].based = true
  let stops := s.trace.clipNote[j] && (headerStopping (activeHeader s)).clipped
  (held = .live → t.seq.comp = some ⟨j, .posting (plainOf .live .none s.seq.sweepNumber)⟩) ∧
  (held = .faultedSampler → t.seq.comp = some ⟨j, .posting (plainOf .faulted .sampler s.seq.sweepNumber)⟩) ∧
  (held = .accumulation → s.verdict.table[j].based = false →
    t.seq.comp = some ⟨j, .posting (plainOf .unbased .none s.seq.sweepNumber)⟩) ∧
  (¬ runs → t.trace.bg = none) ∧
  (runs → stops = false → t.seq.comp = some ⟨j, .comparing⟩ ∧
    ∃ b, t.trace.bg = some b ∧ b.op = .compareRun ∧ b.slot = j ∧ b.shots = s.intake.accepted[j] ∧
      b.record = rec' ∧ b.point = recCompareStart rec' ∧ b.stopping = headerStopping (activeHeader s) ∧
      b.acc = none ∧ b.masked = ⟨false, false, s.trace.clipNote[j]⟩ ∧ b.cmp = Comparison.start) ∧
  (runs → stops = true → t.trace.bg = none ∧
    ∃ q, t.seq.comp = some ⟨j, .posting q⟩ ∧ q.kind = .faulted ∧ q.reason = .condition ∧ q.location = 0 ∧
      (s.trace.capture = none →
        t.trace.capture = some ⟨.compareRun, j, s.seq.sweepNumber, 0, .clipped⟩)) ∧
  t.mem = s.mem ∧ t.pins = s.pins

/-- The compare range of a slot that runs is not empty, and its first word lies in trace memory. -/
def RangeServed (j : SlotIx) (held : Held) (s : State) : Prop :=
  held = .accumulation ∧ s.verdict.table[j].based = true →
    recCompareStart (activeRecord s j) ≤ recCompareEnd (activeRecord s j) ∧
      recAccBase (activeRecord s j) + 4 * recCompareStart (activeRecord s j) < 0x1000000

/-- Whether a slot enters the comparison lane with a comparison that CLIPPED stops. -/
def StopsAtEntry (j : SlotIx) (held : Held) (s : State) : Prop :=
  (held = .accumulation ∧ s.verdict.table[j].based = true) ∧
    (s.trace.clipNote[j] && (headerStopping (activeHeader s)).clipped) = true

/-- A slot enters the comparison lane with what it holds. -/
theorem enterComparison_entered {j : SlotIx} {held : Held} {s : State} (bg : s.trace.bg = none)
    (range : RangeServed j held s) : OnlyCompares s (enterComparison j held s) ∧
      ComparisonEntered j held s (enterComparison j held s) ∧
      (StopsAtEntry j held s ∨ (enterComparison j held s).findings = s.findings) ∧
      (enterComparison j held s).seq.comp ≠ none ∧ TraceSettled (enterComparison j held s) := by
  have plain (r : Result) : OnlyCompares s (enterPosting j r s) := by constructor <;> rfl
  have rests (r : Result) : TraceSettled (enterPosting j r s) := by simp [TraceSettled, enterPosting, bg]
  unfold enterComparison ComparisonEntered
  cases held with
  | live =>
    exact ⟨plain _, by simp [enterPosting, bg, plainResult, plainOf], .inr rfl, by simp [enterPosting], rests _⟩
  | faultedSampler =>
    exact ⟨plain _, by simp [enterPosting, bg, plainResult, plainOf], .inr rfl, by simp [enterPosting], rests _⟩
  | accumulation =>
    cases based : s.verdict.table[j].based with
    | false =>
      refine ⟨plain _, ?_, .inr rfl, ?_, rests _⟩
      · simp [enterPosting, bg, plainResult, plainOf]
      · simp [enterPosting]
    | true =>
      obtain ⟨u, hu⟩ : ∃ u : State, u = { s with seq.comp := some ⟨j, .comparing⟩ } := ⟨_, rfl⟩
      obtain ⟨nonempty, served⟩ := range ⟨rfl, based⟩
      dsimp only
      rw [if_pos rfl, ← hu]
      cases stops : (s.trace.clipNote[j] && (headerStopping (activeHeader s)).clipped) with
      | false =>
        obtain ⟨only, comp, runs, findings⟩ := startCompareRun_goes (j := j) (s := u)
          (by rw [hu]; exact stops) (by rw [hu]; exact nonempty)
        obtain ⟨op, slot, shots, record, point, stopping, acc, masked, cmp⟩ := begunRun_fields j u
        generalize startCompareRun j u = w at *
        generalize begunRun j u = b at *
        rw [hu] at comp findings shots record point stopping masked
        have need : traceNeed b ≠ .nothing := by
          have lt : accAddress b < memoryEnd := by
            unfold accAddress
            rw [record, point]
            exact served
          unfold traceNeed
          rw [acc, if_pos (by simpa using lt)]
          simp
        refine ⟨?_, ⟨by simp, by simp, by simp, by simp, fun _ _ => ⟨comp, _, runs, op, slot, shots, record,
          point, stopping, acc, masked, cmp⟩, by simp, by rw [only.mem, hu], by rw [only.pins, hu]⟩,
          .inr findings, by simp [comp], fun b' hb => ?_⟩
        · obtain ⟨seq, plan, opt, intake, accum, verdict, view, path, mem, pins⟩ := only
          rw [hu] at seq plan opt intake accum verdict view path mem pins
          exact ⟨seq, plan, opt, intake, accum, verdict, view, path, mem, pins⟩
        · obtain rfl : b = b' := Option.some.inj (runs.symm.trans hb)
          exact need
      | true =>
        obtain ⟨only, ended, q, comp, kind, reason, location, capture⟩ := startCompareRun_stops (j := j) (s := u)
          (by rw [hu]; exact stops) (by rw [hu])
        generalize startCompareRun j u = w at *
        rw [hu] at capture
        refine ⟨?_, ⟨by simp, by simp, by simp, by simp, by simp,
          fun _ _ => ⟨ended, q, comp, kind, reason, location, capture⟩, by rw [only.mem, hu], by rw [only.pins, hu]⟩,
          .inl ⟨⟨rfl, based⟩, stops⟩, by simp [comp], by simp [TraceSettled, ended]⟩
        obtain ⟨seq, plan, opt, intake, accum, verdict, view, path, mem, pins⟩ := only
        rw [hu] at seq plan opt intake accum verdict view path mem pins
        exact ⟨seq, plan, opt, intake, accum, verdict, view, path, mem, pins⟩

/-- What the slot enters with reads of the state it finds. -/
theorem ComparisonEntered.of {j : SlotIx} {held : Held} {p s q t : State} (h : ComparisonEntered j held p q)
    (plan : p.plan = s.plan) (trace : p.trace = s.trace) (intake : p.intake = s.intake)
    (number : p.seq.sweepNumber = s.seq.sweepNumber) (based : p.verdict.table[j].based = s.verdict.table[j].based)
    (mem : p.mem = s.mem) (pins : p.pins = s.pins) (comp : t.seq.comp = q.seq.comp) (bg : t.trace.bg = q.trace.bg)
    (capture : t.trace.capture = q.trace.capture) (mem' : t.mem = q.mem) (pins' : t.pins = q.pins) :
    ComparisonEntered j held s t := by
  unfold ComparisonEntered activeRecord activeHeader at *
  rw [comp, bg, capture, mem', pins']
  rw [plan, trace, intake, number, based, mem, pins] at h
  exact h

end Sys2Proof.Machine
end

section
/-! PROOFS. A result taken while a slot waits for the comparison lane (O56: R30, R32, R33, R52, R62). -/

namespace Sys2Proof.Machine

/-! ### A slot leaves the acquisition lane by its move (R52, R62) -/

/-- Optical Control as a slot leaves the acquisition lane by its move. -/
theorem leaveLane_opt (source : BitVec 2) (s : State) :
    (headerWarmHold (activeHeader s) ≠ 0 → (leaveLane source s).opt = { s.opt with
      testActive := false
      warmHoldTimer := some ⟨source, headerWarmHold (activeHeader s)⟩ }) ∧
    (headerWarmHold (activeHeader s) = 0 → sourceState (leaveLane source s) source.toNat = .cold ∧
      (leaveLane source s).opt.testActive = false) ∧
    (leaveLane source s).opt.settled = s.opt.settled ∧
    ∀ other, warmOf s other ≠ .warm → warmOf (leaveLane source s) other ≠ .warm := by
  by_cases hold : headerWarmHold (activeHeader s) = 0
  · have left : leaveLane source s = coldSource source (deassertTestActive s) := if_pos hold
    have cold (n : Nat) := sourceState_set (s := s) (t := leaveLane source s) (source := source) (a := .cold)
      (by rw [left]; rfl) n
    refine ⟨fun h => absurd hold h, fun _ => ⟨?_, by rw [left]; rfl⟩, by rw [left]; rfl, fun other h => ?_⟩
    · rw [cold]
      split
      · rfl
      · next no =>
        have three : source.toNat = 3 := by
          have below : ¬ source.toNat < 3 := fun lt => no ⟨rfl, lt⟩
          have number := source.isLt
          omega
        rw [three]
        rfl
    · rw [warmOf_eq, cold]
      split
      · simp
      · exact h
  · have left : leaveLane source s = { deassertTestActive s with
        opt.warmHoldTimer := some ⟨source, headerWarmHold (activeHeader s)⟩ } := if_neg hold
    rw [left]
    exact ⟨fun _ => rfl, fun h => absurd h hold, rfl, fun other h => h⟩

/-! ### The result taken -/

/-- A result with no honoured partner taken: the slot is off the comparison lane, and its verdict is posted. -/
theorem takePosted_alone {k : SlotIx} {r : Result} {s : State} (comp : s.seq.comp = some ⟨k, .posting r⟩)
    (alone : s.verdict.judgements[k] = .unpaired) : ResultOff k r s (takePosted s) ∧
      (takePosted s).findings = (postVerdict k (unpairedVerdict r) s).findings ∧
      (takePosted s).verdict = (postVerdict k (unpairedVerdict r) s).verdict := by
  rw [← verdictTake_alone (.inl (relation_unpaired alone))]
  refine resultOff_of comp ?_
  rw [takePosted_eq comp, report_report]

/-- `q` is `s` with the result `r` of slot `k` taken and slot `j`, which holds `held`, moved to the comparison lane. -/
structure MovedOver (k : SlotIx) (r : Result) (j : SlotIx) (held : Held) (s q : State) : Prop where
  seq : q.seq = { s.seq with acq := none, comp := q.seq.comp, outcomes := s.seq.outcomes.set k (takenOutcome r) }
  busy : q.seq.comp ≠ none
  plan : q.plan = s.plan
  hold : headerWarmHold (activeHeader s) ≠ 0 → q.opt = { s.opt with
    testActive := false
    warmHoldTimer := some ⟨recSource (activeRecord s j), headerWarmHold (activeHeader s)⟩ }
  cold : headerWarmHold (activeHeader s) = 0 →
    sourceState q (recSource (activeRecord s j)).toNat = .cold ∧ q.opt.testActive = false
  switch : q.opt.port = s.opt.port ∧ q.opt.settled = s.opt.settled
  warm : ∀ other, warmOf s other ≠ .warm → warmOf q other ≠ .warm
  entered : ComparisonEntered j held s q
  verdict : q.verdict = (postVerdict k (unpairedVerdict r) s).verdict
  findings : StopsAtEntry j held s ∨ q.findings = (postVerdict k (unpairedVerdict r) s).findings
  idle : TraceIdle q

/-- A slot in AWAITING COMPARE moves over as a result is taken (R32). -/
theorem movedOver_takePosted {k j : SlotIx} {r : Result} {held : Held} {s : State}
    (comp : s.seq.comp = some ⟨k, .posting r⟩) (alone : s.verdict.judgements[k] = .unpaired)
    (view : s.trace.view = none) (bg : s.trace.bg = none) (range : RangeServed j held s) :
    MovedOver k r j held s (moveToComparison j held (takePosted s)) := by
  obtain ⟨⟨seq, path, plan, opt, intake, accum, trace, mem, pins⟩, findings, verdict⟩ := takePosted_alone comp alone
  generalize takePosted s = p at *
  obtain ⟨u, hu⟩ : ∃ u, u = leaveLane (recSource (activeRecord p j)) { p with seq.acq := none } := ⟨_, rfl⟩
  have record : activeRecord p j = activeRecord s j := by simp [activeRecord, plan]
  have header : activeHeader p = activeHeader s := by simp [activeHeader, plan]
  have kept : u.plan = s.plan ∧ u.intake = s.intake ∧ u.trace = s.trace ∧ u.mem = s.mem ∧ u.pins = s.pins ∧
      u.verdict = (postVerdict k (unpairedVerdict r) s).verdict ∧
      u.findings = (postVerdict k (unpairedVerdict r) s).findings := by
    simp [hu, plan, intake, trace, mem, pins, verdict, findings]
  obtain ⟨uplan, uintake, utrace, umem, upins, uverdict, ufindings⟩ := kept
  have useq : u.seq = { s.seq with acq := none, comp := none, outcomes := s.seq.outcomes.set k (takenOutcome r) } := by
    simp [hu, seq]
  obtain ⟨holds, colds, settled, warm⟩ := leaveLane_opt (recSource (activeRecord p j)) { p with seq.acq := none }
  rw [← hu] at holds colds settled warm
  have based : u.verdict.table[j].based = s.verdict.table[j].based := by rw [uverdict, postVerdict_based]
  have urange : RangeServed j held u := by
    unfold RangeServed activeRecord at *
    rw [uplan, based]
    exact range
  obtain ⟨only, entered, posted, busy, quiet⟩ := enterComparison_entered (by rw [utrace, bg]) urange
  have move : moveToComparison j held p = report (enterComparison j held u) := by rw [hu]; rfl
  rw [move]
  generalize enterComparison j held u = w at *
  have warmed : warmOf (report w) = warmOf u := by
    funext i
    simp [warmOf, only.opt]
  have hot : warmOf { p with seq.acq := none } = warmOf s := by
    funext i
    simp [warmOf, opt]
  have stops (h : StopsAtEntry j held u) : StopsAtEntry j held s := by
    unfold StopsAtEntry activeHeader at *
    rwa [uplan, utrace, based] at h
  have header' : activeHeader { p with seq.acq := none } = activeHeader s := header
  rw [header', record] at holds colds
  exact {
    seq := by
      have wseq := only.seq
      rw [useq] at wseq
      simpa using wseq
    busy := by simpa using busy
    plan := by simp [only.plan, uplan]
    hold := fun h => by simp [only.opt, holds h, opt]
    cold := fun h => by
      obtain ⟨cold, active⟩ := colds h
      refine ⟨?_, by simp [only.opt, active]⟩
      have same := congrFun warmed (recSource (activeRecord s j))
      rw [warmOf_eq, warmOf_eq] at same
      exact same.trans cold
    switch := by
      have port : u.opt.port = s.opt.port := by simp [hu, opt]
      rw [opt] at settled
      simp [only.opt, port, settled]
    warm := fun other h => by
      rw [warmed]
      exact warm other (hot ▸ h)
    entered := entered.of uplan utrace uintake (by rw [useq]) based umem upins (by simp) (by simp) (by simp) (by simp)
      (by simp)
    verdict := by simp [only.verdict, uverdict]
    findings := posted.imp stops fun same => by simp [same, ufindings]
    idle := traceIdle_of (idle_of (by rw [only.view, utrace, view]) quiet) (by simp) }

end Sys2Proof.Machine
end

section
/-! PROOFS. The offers that follow a move to the comparison lane (O56: R16, R17, R30). -/

namespace Sys2Proof.Machine

/-! ### The partner judgements of the slots offered (R17) -/

/-- The partner-ignored flags of `t` take the judgement of the slots of a list and are else those of `s`; nothing else
of the plan moves (R17). -/
def Judged (l : List SlotIx) (s t : State) : Prop :=
  t.plan = { s.plan with partnerIgnored := t.plan.partnerIgnored } ∧
  ∀ i : SlotIx, t.plan.partnerIgnored[i] = true ↔
    if i ∈ l then PartnerIgnored s i else s.plan.partnerIgnored[i] = true

/-- With the plan as it is no slot is judged. -/
theorem judged_nil {s t : State} (plan : t.plan = s.plan) : Judged [] s t := by
  unfold Judged
  rw [plan]
  simp

/-- The judgement of a partner field as the statements give it (R17). -/
theorem partnerIgnoredNow_iff (s : State) (k : SlotIx) : partnerIgnoredNow s k = true ↔ PartnerIgnored s k := by
  unfold partnerIgnoredNow PartnerIgnored partnerHonoured
  cases partner : recPartner (activeRecord s k) with
  | none => simp
  | some p =>
    simp
    tauto

/-- A further slot judged (R17). -/
theorem judged_append {l : List SlotIx} {n : SlotIx} {s u w : State} (h : Judged l s u)
    (plan : w.plan = (setPartnerIgnored n u).plan) : Judged (l ++ [n]) s w := by
  obtain ⟨same, flags⟩ := h
  have now : partnerIgnoredNow u n = partnerIgnoredNow s n := by
    unfold partnerIgnoredNow partnerHonoured activeRecord
    rw [same]
  have set : w.plan.partnerIgnored = u.plan.partnerIgnored.set n (partnerIgnoredNow s n) := by
    rw [plan, ← now]
    rfl
  refine ⟨?_, fun i => ?_⟩
  · rw [plan]
    unfold setPartnerIgnored
    rw [same]
  · rw [set]
    by_cases h : i = n
    · subst h
      simpa using partnerIgnoredNow_iff s i
    · have ne : n.val ≠ i.val := fun e => h (Fin.ext e.symm)
      have flag := flags i
      simpa [Vector.getElem_set_ne _ _ ne, h] using flag

/-! ### The state between a move and an offer -/

/-- `w` is a state in which the acquisition lane is to be offered, as it follows from `s` by a taken result, the move of
slot `j` that holds `held`, and the offers of a list of slots. -/
structure Offering (j : SlotIx) (held : Held) (s : State) (l : List SlotIx) (cursor : Nat)
    (outcomes : Vector SlotOutcome 24) (w : State) : Prop where
  seq : w.seq = { s.seq with acq := none, comp := w.seq.comp, cursor := cursor, outcomes := outcomes }
  judged : Judged l s w
  switch : w.opt.port = s.opt.port ∧ w.opt.settled = s.opt.settled
  warm : ∀ other, warmOf s other ≠ .warm → warmOf w other ≠ .warm
  entered : ComparisonEntered j held s w
  busy : w.seq.comp ≠ none
  idle : TraceIdle w

/-- After the move nothing is offered yet. -/
theorem MovedOver.offering {k j : SlotIx} {r : Result} {held : Held} {s q : State} (h : MovedOver k r j held s q) :
    Offering j held s [] s.seq.cursor (s.seq.outcomes.set k (takenOutcome r)) q :=
  ⟨h.seq, judged_nil h.plan, h.switch, h.warm, h.entered, h.busy, h.idle⟩

section
variable {j : SlotIx} {held : Held} {s w : State} {l : List SlotIx} {cursor : Nat} {outcomes : Vector SlotOutcome 24}

/-- What the offers read of the plan is what it was. -/
theorem Offering.reads (h : Offering j held s l cursor outcomes w) : holdFlag w = holdFlag s ∧
    w.plan.recordDirty = s.plan.recordDirty ∧ activeRecord w = activeRecord s ∧ planCheck w = planCheck s := by
  obtain ⟨plan, -⟩ := h.judged
  have active : w.plan.activeCopy = s.plan.activeCopy := by rw [plan]
  refine ⟨?_, by rw [plan], ?_, funext (planCheck_of active)⟩
  · simp [holdFlag, activeHeader, active]
  · funext i
    simp [activeRecord, active]

/-- The lane is offered. -/
theorem Offering.calls (h : Offering j held s l cursor outcomes w) (st : s.seq.state = .sweeping)
    (order : s.seq.orderEnded = false) (quiet : s.seq.quietEnd = false) : laneCalls w = true := by
  have seq := h.seq
  exact laneCalls_empty (by rw [seq]; exact st) (by rw [seq]) (by rw [seq]; exact order) (by rw [seq]; exact quiet)

/-- What a further step of the lanes leaves of the slot in the comparison lane. -/
structure Beside (w t : State) : Prop where
  comp : t.seq.comp = w.seq.comp
  bg : t.trace.bg = w.trace.bg
  view : t.trace.view = w.trace.view
  capture : t.trace.capture = w.trace.capture
  mem : t.mem = w.mem
  pins : t.pins = w.pins

/-- The slot in the comparison lane is as it was where nothing of it has changed. -/
theorem Beside.entered {w t : State} (h : Beside w t) (entered : ComparisonEntered j held s w) :
    ComparisonEntered j held s t :=
  entered.of rfl rfl rfl rfl rfl rfl rfl h.comp h.bg h.capture h.mem h.pins

/-- The slot order ends at a cursor of 24 and at a disabled slot (R30). -/
theorem Offering.closes (h : Offering j held s l cursor outcomes w) (st : s.seq.state = .sweeping)
    (order : s.seq.orderEnded = false) (quiet : s.seq.quietEnd = false)
    (ends : cursor = 24 ∨ ∃ n : SlotIx, cursor = n.val ∧ (holdFlag s = true ∨ s.plan.recordDirty[n] = false) ∧
      recEnable (activeRecord s n) = false) (fuel : Nat) :
    lanes (fuel + 1) w = { w with seq.orderEnded := true } := by
  obtain ⟨hold, dirty, record, -⟩ := h.reads
  have seq := h.seq
  have acq : w.seq.acq = none := by rw [seq]
  have at' : w.seq.cursor = cursor := by rw [seq]
  have move : laneMove w = { w with seq.orderEnded := true } := by
    rcases ends with rfl | ⟨n, rfl, clean, disabled⟩
    · unfold laneMove offerLane
      rw [acq]
      dsimp only
      rw [dif_neg (by omega)]
    · rw [laneMove_offers acq at', offerSlot_disabled (by rw [hold, dirty]; exact clean)
        (by rw [record]; exact disabled)]
  rw [lanes_step (h.calls st order quiet), move]
  exact lanes_idle (by simp [laneCalls, acq]) fuel

/-- A slot that can take the lane takes it (R30). -/
theorem Offering.enters {n : SlotIx} (h : Offering j held s l n.val outcomes w) (st : s.seq.state = .sweeping)
    (order : s.seq.orderEnded = false) (quiet : s.seq.quietEnd = false) (next : NextSlotSettles n s) (fuel : Nat) :
    lanes (fuel + 1) w = report (Machine.entered n (setPartnerIgnored n w)) := by
  obtain ⟨hold, dirty, record, check⟩ := h.reads
  have seq := h.seq
  have settles : NextSlotSettles n w := by
    obtain ⟨clean, enabled, passes, unsettled⟩ := next
    refine ⟨by rw [hold, dirty]; exact clean, by rw [record]; exact enabled, by rw [check]; exact passes, ?_⟩
    obtain ⟨port, settled⟩ := h.switch
    rw [record, port, settled]
    exact unsettled.imp_right (Or.imp_right (h.warm _))
  exact lanes_enters (by rw [seq]; exact st) (by rw [seq]) (by rw [seq]; exact order) (by rw [seq]; exact quiet)
    (by rw [seq]) settles fuel

/-- A slot that fails the plan check takes PLAN FAULT, and the next is offered (R30). -/
theorem Offering.fails {n : SlotIx} (h : Offering j held s l n.val outcomes w) (st : s.seq.state = .sweeping)
    (order : s.seq.orderEnded = false) (quiet : s.seq.quietEnd = false)
    (clean : holdFlag s = true ∨ s.plan.recordDirty[n] = false) (enabled : recEnable (activeRecord s n) = true)
    (check : planCheck s n = false) (fuel : Nat) : ∃ u, lanes (fuel + 1) w = lanes fuel u ∧
      Offering j held s (l ++ [n]) (n.val + 1) (outcomes.set n .planFault) u := by
  obtain ⟨hold, dirty, record, passes⟩ := h.reads
  have seq := h.seq
  refine ⟨report (setOutcome n .planFault { setPartnerIgnored n w with seq.cursor := n.val + 1 }), ?_, ?_⟩
  · rw [lanes_step (h.calls st order quiet), laneMove_offers (k := n) (by rw [seq]) (by rw [seq]),
      offerSlot_fails (by rw [hold, dirty]; exact clean) (by rw [record]; exact enabled) (by rw [passes, check])]
  · have beside : Beside w (report
        (setOutcome n .planFault { setPartnerIgnored n w with seq.cursor := n.val + 1 })) := by
      constructor <;> simp
    exact {
      seq := by
        simp only [report_frame]
        unfold setOutcome setPartnerIgnored
        rw [seq]
      judged := judged_append h.judged (by simp [setPartnerIgnored])
      switch := by simpa using h.switch
      warm := fun other cold => by
        have same : warmOf (report (setOutcome n .planFault { setPartnerIgnored n w with seq.cursor := n.val + 1 })) =
            warmOf w := by
          funext i
          simp [warmOf]
        rw [same]
        exact h.warm other cold
      entered := beside.entered h.entered
      busy := by rw [beside.comp]; exact h.busy
      idle := traceIdle_same h.idle beside.bg beside.view }

end

/-! ### What is left once the lanes call for nothing more -/

/-- A result taken with a slot in AWAITING COMPARE: its move, and then the lanes as far as they go. -/
theorem exec_moves {k j : SlotIx} {r : Result} {held : Held} {s q w : State} (ready : EventReady s)
    (st : s.seq.state = .sweeping) (lane : s.seq.acq = some ⟨j, .awaiting held⟩)
    (comp : s.seq.comp = some ⟨k, .posting r⟩) (moves : q = moveToComparison j held (takePosted s))
    (goes : lanes 31 q = w) (busy : w.seq.comp ≠ none) (idle : TraceIdle w) :
    exec .takeResult s = .next (report w) := by
  obtain ⟨⟨seq, -⟩, -⟩ := resultOff_of comp rfl
  have acts : resultTaken s = w := by
    have calls : laneCalls (takePosted s) = true := by
      simp only [report_frame] at seq
      simp [laneCalls, seq, st, lane]
    have move : laneMove (takePosted s) = q := by
      simp only [report_frame] at seq
      simp [laneMove, seq, lane, moves]
    have over' : sweepOver w = false := by simp [sweepOver, busy]
    have all : lanes 32 (takePosted s) = w := by rw [lanes_step calls, move, goes]
    unfold resultTaken advance sweepOn
    dsimp only
    rw [all, if_neg (by simp [over']), runTrace_idle idle]
  have waiting : (resultTaken s).path.waiting = s.path.waiting := by simp [resultTaken]
  exact congrArg Host.Outcome.next (happen_eq ready acts (acts ▸ waiting))

end Sys2Proof.Machine
end

section
/-! PROOFS. What taking a result with no honoured partner does (O56). -/

namespace Sys2Proof.Machine

section
variable {j : SlotIx} {held : Held} {s w : State} {l : List SlotIx} {cursor : Nat} {outcomes : Vector SlotOutcome 24}

/-- What is left once slot `n` has taken the lane (R30, R47, R79, R92). -/
theorem Offering.entersLeaves {n : SlotIx} (h : Offering j held s l n.val outcomes w) {t : State}
    (ht : t = report (Machine.entered n (setPartnerIgnored n w))) :
    (t.seq.comp ≠ none ∧ TraceIdle t) ∧ ComparisonEntered j held s t ∧ Judged (l ++ [n]) s t ∧
      t.opt.port = recPort (activeRecord s n) ∧ t.intake.accepted[n] = 0 ∧
      ⟨.run, n, recAccBase (activeRecord s n), recPoints (activeRecord s n)⟩ ∈ t.path.guards ∧
      t.seq = { s.seq with
        acq := some ⟨n, .settling⟩
        comp := t.seq.comp
        cursor := n.val + 1
        entered := true
        outcomes := outcomes.set n .notRun } := by
  obtain ⟨u, hu⟩ : ∃ u, u = setPartnerIgnored n w := ⟨_, rfl⟩
  obtain ⟨seq, path, intake, -, trace, plan, mem, pins⟩ := entered_frame n u
  obtain ⟨port, -⟩ := entered_opt n u
  obtain ⟨-, -, record, -⟩ := h.reads
  have record' : activeRecord u n = activeRecord s n := by rw [← record, hu]; rfl
  have kept : u.seq = w.seq ∧ u.trace = w.trace ∧ u.mem = w.mem ∧ u.pins = w.pins := by simp [hu]
  obtain ⟨useq, utrace, umem, upins⟩ := kept
  rw [← hu] at ht
  have tseq : t.seq = { w.seq with
      cursor := n.val + 1, entered := true, acq := some ⟨n, .settling⟩, outcomes := w.seq.outcomes.set n .notRun } := by
    rw [ht, (report_frame _).2.1, seq, useq]
  have comp : t.seq.comp = w.seq.comp := by rw [tseq]
  have beside : Beside w t := ⟨comp, by simp [ht, trace, utrace], by simp [ht, trace, utrace],
    by simp [ht, trace, utrace],
    by simp [ht, mem, umem], by simp [ht, pins, upins]⟩
  refine ⟨⟨by rw [comp]; exact h.busy, traceIdle_same h.idle beside.bg beside.view⟩, beside.entered h.entered,
    judged_append h.judged (by rw [ht, (report_frame _).1, plan, hu]), by simp [ht, port, record'],
    by simp [ht, intake], by simp [ht, path, record'], ?_⟩
  have wseq := h.seq
  rw [← comp] at wseq
  rw [tseq, wseq]

/-- What is left once the slot order has ended (R30). -/
theorem Offering.closesLeaves (h : Offering j held s l cursor outcomes w) {t : State}
    (ht : t = { w with seq.orderEnded := true }) :
    (t.seq.comp ≠ none ∧ TraceIdle t) ∧ ComparisonEntered j held s t ∧ Judged l s t ∧
      t.seq = { s.seq with
        acq := none
        comp := t.seq.comp
        cursor := cursor
        orderEnded := true
        outcomes := outcomes } := by
  have beside : Beside w t := by rw [ht]; exact ⟨rfl, rfl, rfl, rfl, rfl, rfl⟩
  refine ⟨⟨by rw [beside.comp]; exact h.busy, traceIdle_same h.idle beside.bg beside.view⟩, beside.entered h.entered,
    ?_, ?_⟩
  · rw [ht]
    exact h.judged
  · have wseq := h.seq
    rw [ht, wseq]

/-- The report shows what the slot in the comparison lane and the partner judgements are. -/
theorem report_leaves (entered : ComparisonEntered j held s w) (judged : Judged l s w) :
    ComparisonEntered j held s (report w) ∧ Judged l s (report w) := by
  have beside : Beside w (report w) := by constructor <;> simp
  refine ⟨beside.entered entered, ?_⟩
  unfold Judged
  rw [(report_frame w).1]
  exact judged

end

/-- A result taken with a slot in AWAITING COMPARE, once the lanes call for nothing more. -/
theorem takeResult_moves {k j : SlotIx} {r : Result} {held : Held} {s q w : State} {l : List SlotIx}
    (ready : EventReady s) (st : s.seq.state = .sweeping) (lane : s.seq.acq = some ⟨j, .awaiting held⟩)
    (comp : s.seq.comp = some ⟨k, .posting r⟩) (moves : q = moveToComparison j held (takePosted s))
    (goes : lanes 31 q = w) (rests : w.seq.comp ≠ none ∧ TraceIdle w) (entered : ComparisonEntered j held s w)
    (judged : Judged l s w) {P : State → Prop} (shows' : P (report w)) :
    ∃ t, (exec .takeResult s = .next t ∧ ComparisonEntered j held s t) ∧ Judged l s t ∧ P t := by
  obtain ⟨entered', judged'⟩ := report_leaves entered judged
  exact ⟨report w, ⟨exec_moves ready st lane comp moves goes rests.1 rests.2, entered'⟩, judged', shows'⟩

/-! ### The sweep ends COMPLETE (R35, R36, R37) -/

/-- The sequencer with the last result of a sweep taken. -/
theorem takePosted_last {k : SlotIx} {r : Result} {s : State} (comp : s.seq.comp = some ⟨k, .posting r⟩)
    (alone : s.verdict.judgements[k] = .unpaired) (acq : s.seq.acq = none) : (takePosted s).seq =
      { s.seq with acq := none, comp := none, outcomes := s.seq.outcomes.set k (takenOutcome r) } := by
  obtain ⟨⟨seq, -⟩, -⟩ := takePosted_alone comp alone
  rw [seq, ← acq]

/-- With the last result taken the sweep ends at once, COMPLETE (R35). -/
theorem exec_completes {k : SlotIx} {r : Result} {s u : State} (ready : EventReady s)
    (comp : s.seq.comp = some ⟨k, .posting r⟩) (alone : s.verdict.judgements[k] = .unpaired)
    (st : s.seq.state = .sweeping) (acq : s.seq.acq = none) (order : s.seq.orderEnded = true)
    (goes : sweepOn 2 (afterComplete (endSteps .complete (takePosted s))) = u) (idle : TraceIdle u) :
    exec .takeResult s = .next (report u) := by
  have seq := takePosted_last comp alone acq
  have acts : resultTaken s = u := by
    have calls : laneCalls (takePosted s) = false := by simp [laneCalls, seq, order]
    have over' : sweepOver (takePosted s) = true := by simp [sweepOver, seq, st, order]
    have ended : endSweep (takePosted s) = afterComplete (endSteps .complete (takePosted s)) :=
      if_pos (by rw [seq]; exact order)
    unfold resultTaken advance
    rw [sweepOn]
    rw [lanes_idle calls, if_pos over', ended, goes, runTrace_idle idle]
  have waiting : (resultTaken s).path.waiting = s.path.waiting := by simp [resultTaken]
  exact congrArg Host.Outcome.next (happen_eq ready acts (acts ▸ waiting))

/-- A sweep that ends COMPLETE and rests in a state. -/
theorem sweepCompleted {k : SlotIx} {r : Result} {s : State} (ready : EventReady s)
    (comp : s.seq.comp = some ⟨k, .posting r⟩) (alone : s.verdict.judgements[k] = .unpaired) (idle : TraceIdle s)
    (plan : PlanSettled s) (st : s.seq.state = .sweeping) (acq : s.seq.acq = none) (order : s.seq.orderEnded = true)
    {rest : SeqState} (left : rest ≠ .sweeping) (goes : afterComplete (endSteps .complete (takePosted s)) =
      enterState rest (endSteps .complete (takePosted s))) :
    ∃ t, exec .takeResult s = .next t ∧ SweepCompleted k r s t ∧ t.seq.state = rest := by
  have seq := takePosted_last comp alone acq
  obtain ⟨⟨-, path, planKept, opt, intake, accum, trace, mem, pins⟩, -⟩ := takePosted_alone comp alone
  obtain ⟨sm, n, queued, asks, sweep, mode, why, empty, listed, -, -⟩ := endSteps_summary .complete (takePosted s)
  have final := endSteps_final .complete (takePosted s)
  have outcomes := endSteps_complete (takePosted s)
  have completes (u : State) := exec_completes (u := u) ready comp alone st acq order
  generalize takePosted s = p at *
  have settled : PlanSettled (endSteps .complete p) := planSettled_of plan (by simp [planKept])
  rw [enterState_settled settled] at goes
  obtain ⟨w, hw⟩ : ∃ w : State, w = { endSteps .complete p with seq.state := rest } := ⟨_, rfl⟩
  rw [goes, ← hw] at completes
  have wseq : w.seq = { p.seq with state := rest } := by rw [hw, ← outcomes]
  have outside : (report w).seq.state ≠ .sweeping := by simpa [wseq] using left
  have wtrace : w.trace = s.trace := by simp [hw, trace]
  refine ⟨_, completes _ (sweepOn_idle (laneCalls_outside outside) (sweepOver_outside outside) 2)
    (traceIdle_of idle (by simp [wtrace])), ?_, by simp [wseq]⟩
  rw [seq] at wseq
  have wout := congrArg SequencerState.outcomes wseq
  dsimp only at wout
  exact {
    lanes := by simp [wseq]
    outcomes := by simp [wout]
    summary := by
      refine ⟨sm, n, by simpa [hw] using queued, by rw [sweep, seq], by rw [mode, seq], why, by rw [empty, seq], ?_,
        fun must => asks ?_⟩
      · rw [listed, outcomes, seq]
        simp [wout]
      · unfold endNotice
        rw [seq]
        rcases must with h | h <;> simp [h]
    inputs := fun j x hx => final j x (by simpa [hw] using hx)
    number := by simp [wseq]
    kept := by simp [hw, opt, intake, accum, trace, mem, pins] }

/-- A LOOP sweep that ends COMPLETE with the gate asserted is followed by the next at once (R28, R36). -/
theorem completed_sweptOn {k : SlotIx} {r : Result} {s : State} (ready : EventReady s)
    (comp : s.seq.comp = some ⟨k, .posting r⟩) (alone : s.verdict.judgements[k] = .unpaired) (idle : TraceIdle s)
    (plan : PlanSettled s) (st : s.seq.state = .sweeping) (acq : s.seq.acq = none) (order : s.seq.orderEnded = true)
    (goes : afterComplete (endSteps .complete (takePosted s)) = startSweep (endSteps .complete (takePosted s)))
    (ring : s.plan.ringFault = false) (next : NextSlotSettles 0 s) :
    ∃ t, exec .takeResult s = .next t ∧ SweptOn .complete (takePosted s) t := by
  have seq := takePosted_last comp alone acq
  obtain ⟨⟨-, -, planKept, opt, -, -, trace, -, -⟩, -⟩ := takePosted_alone comp alone
  have completes (u : State) := exec_completes (u := u) ready comp alone st acq order
  generalize takePosted s = p at *
  have pacq : p.seq.acq = none := by rw [seq]
  have pcomp : p.seq.comp = none := by rw [seq]
  rw [goes, startSweep_settled (planSettled_of plan (by simp [planKept])) (by simp [planKept, ring])] at completes
  have first : NextSlotSettles 0 (endSteps .complete p) :=
    nextSlotSettles_of next (by simp [planKept]) (by simp [opt])
  refine ⟨_, completes _ (sweepOn_begun (by simp [pacq]) first 1) ?_, sweptOn_of pcomp (shows_report _)⟩
  obtain ⟨-, -, after, -⟩ := firstSettled_frame (endSteps .complete p)
  exact traceIdle_same idle (by simp [after, trace]) (by simp [after, trace])

/-- Settles O56: the result is off the lane and its verdict posted; the slot that waits moves over, and the lane is
offered from the cursor on; with nothing left the sweep ends COMPLETE. -/
theorem resultTaken_holds : Obligations.ResultTaken := by
  intro k r s ready comp alone
  refine ⟨fun l idle lane busy => ?_, fun j held st view bg lane => ?_, ?_⟩
  · obtain ⟨t, next, off, findings, verdict⟩ := exec_takeResult ready idle comp lane busy
    rw [verdictTake_alone (.inl (relation_unpaired alone))] at findings verdict
    exact ⟨t, next, off, verdictPosted_of rfl rfl rfl findings verdict⟩
  · intro rec' src runs stops moved range
    obtain ⟨q, hq⟩ : ∃ q, q = moveToComparison j held (takePosted s) := ⟨_, rfl⟩
    have over' : MovedOver k r j held s q := hq ▸ movedOver_takePosted comp alone view bg range
    have offering := over'.offering
    have fin {l : List SlotIx} {w : State} (goes : lanes 31 q = w) (rests : w.seq.comp ≠ none ∧ TraceIdle w)
        (entered : ComparisonEntered j held s w) (judged : Judged l s w) {P : State → Prop} (shows' : P (report w)) :
        ∃ t, moved t ∧ Judged l s t ∧ P t :=
      takeResult_moves ready st lane comp hq goes rests entered judged shows'
    refine ⟨fun ended => ?_, fun order quiet => ?_⟩
    · have calls : laneCalls q = false := by
        have seq := over'.seq
        have marks : (q.seq.orderEnded || q.seq.quietEnd) = true := by rw [seq]; exact ended
        have acq : q.seq.acq = none := by rw [seq]
        simp [laneCalls, acq, marks]
      obtain ⟨t, into, -, rfl⟩ := fin (lanes_idle calls 31) ⟨over'.busy, over'.idle⟩ over'.entered
        (judged_nil over'.plan) (P := fun t => t = report q) rfl
      refine ⟨report q, into, ?_, ?_, fun hold => ?_, fun hold => ?_⟩
      · refine over'.findings.imp id fun findings => ?_
        exact verdictPosted_of rfl rfl rfl (by simp [findings]) (by simp [over'.verdict])
      · rw [(report_frame _).2.1]
        exact over'.seq
      · rw [(report_frame _).2.2.1]
        exact over'.hold hold
      · obtain ⟨cold, active⟩ := over'.cold hold
        exact ⟨by simpa [sourceState] using cold, by simpa using active⟩
    · intro undirtied disabled fails judged enters closes outcomes
      have closed {c : Nat} {o : Vector SlotOutcome 24} {w : State} (seq : w.seq = { s.seq with
          acq := none, comp := w.seq.comp, cursor := c, orderEnded := true, outcomes := o }) :
          closes c o (report w) := by
        dsimp only [closes]
        rw [(report_frame w).2.1]
        exact seq
      refine ⟨fun last => ?_, fun n at' => ?_⟩
      · obtain ⟨rests, entered, judged', seq⟩ := offering.closesLeaves rfl
        rw [last] at seq
        exact fin (offering.closes st order quiet (.inl last) 30) rests entered judged' (closed seq)
      rw [at'] at offering
      refine ⟨fun settles => ?_, fun off => ?_, fun failing last => ?_, fun m failing next => ⟨fun settles => ?_,
        fun off => ?_⟩⟩
      · obtain ⟨rests, entered, judged', port, accepted, guard, seq⟩ := offering.entersLeaves rfl
        refine fin (offering.enters st order quiet settles 30) rests entered judged' ?_
        simpa [enters] using ⟨port, accepted, guard, seq⟩
      · obtain ⟨clean, disabled'⟩ := off
        obtain ⟨rests, entered, judged', seq⟩ := offering.closesLeaves rfl
        exact fin (offering.closes st order quiet (.inr ⟨n, rfl, clean, disabled'⟩) 30) rests entered judged'
          (closed seq)
      all_goals obtain ⟨clean, enabled, check⟩ := failing
      all_goals obtain ⟨u, goes, again⟩ := offering.fails st order quiet clean enabled check 30
      · obtain ⟨rests, entered, judged', seq⟩ := again.closesLeaves rfl
        have cursor : n.val + 1 = 24 := by omega
        rw [cursor] at seq
        exact fin (goes.trans (again.closes st order quiet (.inl cursor) 29)) rests entered judged' (closed seq)
      all_goals rw [← next] at again
      · obtain ⟨rests, entered, judged', port, accepted, guard, seq⟩ := again.entersLeaves rfl
        refine fin (goes.trans (again.enters st order quiet settles 29)) rests entered judged' ?_
        simpa [enters] using ⟨port, accepted, guard, seq⟩
      · obtain ⟨clean', disabled'⟩ := off
        obtain ⟨rests, entered, judged', seq⟩ := again.closesLeaves rfl
        exact fin (goes.trans (again.closes st order quiet (.inr ⟨m, rfl, clean', disabled'⟩) 29)) rests entered judged'
          (closed seq)
  · intro idle view plan st acq order ends
    have rests := fun rest => sweepCompleted (rest := rest) ready comp alone idle plan st acq order
    have seq := takePosted_last comp alone acq
    obtain ⟨e, he⟩ : ∃ e, e = endSteps .complete (takePosted s) := ⟨_, rfl⟩
    have eseq : e.seq = (takePosted s).seq := by rw [he, endSteps_complete]
    have mode : e.seq.mode = s.seq.mode := by rw [eseq, seq]
    have entered : e.seq.entered = s.seq.entered := by rw [eseq, seq]
    have gate' : e.pins.gate = s.pins.gate := by simp [he]
    have header : activeMode e = headerMode (activeHeader s) := by simp [activeMode, activeHeader, he]
    refine ⟨fun once => ?_, fun loop some' shut => ?_, fun loop none' => ?_, fun trig armed => ?_,
      fun loop some' gate ring next => ?_⟩
    · refine rests .idle (by simp) ?_
      rw [← he]
      unfold afterComplete
      rw [mode, once]
    · refine rests .waiting (by simp) ?_
      rw [← he]
      unfold afterComplete startOrWait
      rw [mode, loop]
      dsimp only
      rw [if_pos (entered.trans some'), if_neg (by simp [gate', shut]), enterWaiting_closed (gate'.trans shut)]
    · refine rests .idle (by simp) ?_
      rw [← he]
      unfold afterComplete
      rw [mode, loop]
      dsimp only
      rw [if_neg (by simp [entered, none'])]
    · refine rests .waiting (by simp) ?_
      rw [← he]
      unfold afterComplete
      rw [mode, trig]
      have settled : PlanSettled e := planSettled_of plan (by simp [he])
      have waits : ¬ activeMode (enterState .waiting e) ≠ .triggered := by
        rw [enterState_settled settled]
        simpa [activeMode, activeHeader] using header.trans armed
      exact if_neg fun test => waits test.2.1
    · obtain ⟨t, step, swept⟩ := completed_sweptOn ready comp alone idle plan st acq order (by
        rw [← he]
        unfold afterComplete startOrWait
        rw [mode, loop]
        dsimp only
        rw [if_pos (entered.trans some'), if_pos (gate'.trans gate)]) ring next
      obtain ⟨sm, n, queued, -, sweep, -, why, empty, listed⟩ := swept.summary
      obtain ⟨lane, free, cursor⟩ := swept.lanes
      have number : (takePosted s).seq.sweepNumber = s.seq.sweepNumber := by rw [seq]
      have header' : activeHeader (takePosted s) = activeHeader s := by simp [activeHeader]
      refine ⟨t, step, swept.state, by rw [swept.number, number], lane, free, cursor, by rw [swept.mode, header'],
        swept.outcomes, sm, n, queued, sweep.trans number, why, ?_, ?_⟩
      · rw [empty, seq]
        simp [some']
      · rw [listed, endSteps_complete, seq]

end Sys2Proof.Machine
end
